-- ==== Sys2Proof/Word.lean ====
section
/-!
DEFINITION. The word types of the pico_iox16 bus-protocol block: bytes on the wire and 16-bit
channel values (00_scope.md R7, R12). Every value is unsigned.
-/

namespace Sys2Proof

/-- A wire byte (00_scope.md R7, R12). -/
abbrev Byte := BitVec 8

/-- A 16-bit channel value, version or CRC16 (00_scope.md R8, R13). -/
abbrev Half := BitVec 16

/-- The number of input channels and the number of output channels (00_scope.md R7). -/
abbrev channelCount : Nat := 16

/-- One 16-bit value for each of the 16 channels, channel 0 first (10_state.md R41, R43). -/
abbrev ChannelValues := Vector Half channelCount

end Sys2Proof
end

