-- ==== Sys2Proof/Config.lean ====
section
/-!
DEFINITION. What an implementation fixes (the parameters of 00_scope.md R8 and R10, latched at reset),
what the environment answers in one pass through the seven ports (10_state.md R41), and the free values.
-/

namespace Sys2Proof

/-- CRC_PROFILE (00_scope.md R8): which CRC of 30_encoding.md R85 and R86 the bus uses. -/
inductive CrcProfile where
  | crc8
  | crc16
  deriving DecidableEq, Repr, Inhabited

/-- CRC_BYTES, the number of CRC bytes in a frame (00_scope.md R11). -/
def CrcProfile.bytes : CrcProfile → Nat
  | .crc8 => 1
  | .crc16 => 2

/-- The configuration registers: BOARD_ADDR (10_state.md R20) and the parameters of 00_scope.md R8
and R10 (10_state.md R21). They are latched at reset and no step writes them. -/
structure Params where
  /-- BOARD_ADDR, 8 bits, domain 0 to 254 (10_state.md R20; 255 is read by 41_commands.md R162). -/
  boardAddr : Byte
  /-- START_BYTE (92 D3). -/
  startByte : Byte
  /-- BROADCAST_ADDR (92 D4). -/
  broadcastAddr : Byte
  /-- CRC_PROFILE (92 D5). -/
  crcProfile : CrcProfile
  /-- MAX_PAYLOAD, 8 bits, domain 32 to 255 (92 D8). -/
  maxPayload : Byte
  /-- CMD_PING (92 D10). -/
  cmdPing : Byte
  /-- CMD_READ_INPUTS (92 D10). -/
  cmdReadInputs : Byte
  /-- CMD_SET_OUTPUTS (92 D10). -/
  cmdSetOutputs : Byte
  /-- RSP_ERROR (92 D15). -/
  rspError : Byte
  /-- ERR_BAD_LENGTH (92 D16). -/
  errBadLength : Byte
  /-- ERR_UNKNOWN_COMMAND (92 D16). -/
  errUnknownCommand : Byte
  /-- ERR_INVALID_VALUE (92 D16). -/
  errInvalidValue : Byte
  /-- MAX_DUTY, 16 bits (92 D13). -/
  maxDuty : Half
  /-- PROTOCOL_VERSION (92 D19). -/
  protocolVersion : Byte
  /-- FW_VERSION, 16 bits (92 D19). -/
  fwVersion : Half
  /-- TICK_W, the width of the tick counter in bits (00_scope.md R10, 92 D27). -/
  tickW : Nat
  /-- TICK_UNIT, the real duration of one tick (00_scope.md R10, 92 D27); here in seconds (log entry 2). No rule
  depends on it. -/
  tickUnit : Rat
  /-- INTERBYTE_TIMEOUT, in ticks (00_scope.md R10, 92 D26). -/
  interbyteTimeout : Nat
  /-- TURNAROUND_TICKS (00_scope.md R10, 92 D28). -/
  turnaroundTicks : Nat
  /-- SAMPLE_PERIOD, in ticks (00_scope.md R10, 92 D29). -/
  samplePeriod : Nat
  deriving DecidableEq, Repr, Inhabited

/-- The defaults of 00_scope.md R8, and TICK_W's decided default (92 D27). BOARD_ADDR and the four
other timing parameters have no default in the spec: DESIGN CHOICE (log entry 1, unsafe), the example values of
95_test_vectors.md section 0 (92 D46) and, where it gives none (TICK_UNIT), one millisecond. No statement rests on them: every statement is about an
arbitrary `Params`. -/
def Params.example : Params where
  boardAddr := 5
  startByte := 0xA5
  broadcastAddr := 0xFF
  crcProfile := .crc8
  maxPayload := 64
  cmdPing := 0x01
  cmdReadInputs := 0x02
  cmdSetOutputs := 0x03
  rspError := 0x80
  errBadLength := 0x01
  errUnknownCommand := 0x02
  errInvalidValue := 0x03
  maxDuty := 1000
  protocolVersion := 0x01
  fwVersion := 0x0001
  tickW := 32
  tickUnit := { num := 1, den := 1000 }
  interbyteTimeout := 10
  turnaroundTicks := 0
  samplePeriod := 100

/-- The whole of what the environment answers in one pass, one field per inward port operation
(10_state.md R41). A pass is atomic (42_control_loop.md R190), so the answers of one pass are one datum. -/
structure PassInput where
  /-- What `now()` answers; the port is TICK_W bits wide, so only the low TICK_W bits are read. -/
  now : Nat
  /-- Whether the environment kept its duty towards the clock since the last pass: no step backwards
  and no gap of 2^TICK_W ticks or more (70_reset_and_hazards.md R270; 93 U4). -/
  clockOk : Bool
  /-- The bytes `try_read_byte()` answers in this pass until it answers none, in arrival order. -/
  rx : List Byte
  /-- What `transmit_complete()` answers if it is called in this pass. -/
  txComplete : Bool
  /-- What `sample_inputs()` answers if it is called in this pass: 16 values, or a failure (R43). -/
  sample : Option ChannelValues
  deriving DecidableEq, Repr, Inhabited

/-- What the environment answers in the k-th pass when the state has no answers lined up for it: a free
value, no body (log entry 4, safe). -/
opaque Config.environment : Nat → PassInput

/-- The value of the k-th `elapsed` computed while the environment breaks its duty towards the clock:
93_implementation_defined.md U4 says any value. A free value, no body (log entry 5, safe). -/
opaque Config.freeElapsed : Nat → Nat

end Sys2Proof
end

