-- ==== Sys2Proof/Syntax.lean ====
section
/-!
DEFINITION. The instructions: one constructor for each row of spec/opcode_table.json. An instruction is one
received, validated frame (00_scope.md R3): its ADDRESS, the command its COMMAND byte selects, and its PAYLOAD, whose
length is the LENGTH byte (30_encoding.md R81, R82).
-/

namespace Sys2Proof

/-- One command frame. A payload of the wrong length is an operand like any other: it makes the command
answer ERR_BAD_LENGTH (41_commands.md R167, R172, R176). -/
inductive Instr where
  /-- PING / GET_STATUS (41_commands.md R166, R167). -/
  | ping (addr : Byte) (payload : List Byte)
  /-- READ_INPUTS (41_commands.md R171, R172). -/
  | readInputs (addr : Byte) (payload : List Byte)
  /-- SET_OUTPUTS (41_commands.md R175, R176, R177). -/
  | setOutputs (addr : Byte) (payload : List Byte)
  /-- Any COMMAND value no other row matches (30_encoding.md R88, R89; 41_commands.md R179). -/
  | reserved (addr : Byte) (cmd : Byte) (payload : List Byte)
  deriving DecidableEq, Repr

/-- The ADDRESS byte of the frame (30_encoding.md R81 offset 1). -/
def Instr.addr : Instr → Byte
  | .ping a _ => a
  | .readInputs a _ => a
  | .setOutputs a _ => a
  | .reserved a _ _ => a

/-- The COMMAND byte of the frame (30_encoding.md R81 offset 2, R88). -/
def Instr.cmd (p : Params) : Instr → Byte
  | .ping _ _ => p.cmdPing
  | .readInputs _ _ => p.cmdReadInputs
  | .setOutputs _ _ => p.cmdSetOutputs
  | .reserved _ c _ => c

/-- The PAYLOAD of the frame (30_encoding.md R81 offset 4). -/
def Instr.payload : Instr → List Byte
  | .ping _ pl => pl
  | .readInputs _ pl => pl
  | .setOutputs _ pl => pl
  | .reserved _ _ pl => pl

end Sys2Proof
end

