-- ==== Sys2Proof/WellFormed.lean ====
section
/-!
DEFINITION. Which instructions a frame can carry under given parameters: the LENGTH bound of
30_encoding.md R80 and, for a reserved command, a COMMAND byte outside the three known codes (R88, R89).
-/

namespace Sys2Proof

/-- No known command has this code (30_encoding.md R89). -/
abbrev Params.IsReserved (p : Params) (cmd : Byte) : Prop :=
  cmd ≠ p.cmdPing ∧ cmd ≠ p.cmdReadInputs ∧ cmd ≠ p.cmdSetOutputs

/-- The COMMAND byte is one that the constructor stands for (30_encoding.md R88). -/
def Instr.cmdFits (p : Params) : Instr → Bool
  | .ping _ _ => true
  | .readInputs _ _ => true
  | .setOutputs _ _ => true
  | .reserved _ c _ => decide (p.IsReserved c)

/-- An instruction that a frame of the bus can carry: its payload is within MAX_PAYLOAD
(30_encoding.md R80) and its COMMAND byte selects its constructor (R88). -/
abbrev Instr.WellFormed (p : Params) (i : Instr) : Prop :=
  i.payload.length ≤ p.maxPayload.toNat ∧ i.cmdFits p = true

end Sys2Proof
end

