-- ==== Sys2Proof/Decode.lean ====
section
/-!
DEFINITION. The frame codec as functions on byte sequences: byte order (00_scope.md R13), the CRC (30_encoding.md R84-R87),
the command map (R88), the decoder of one whole frame, total on any bytes and rejecting by name, and the
encoder (40_frame_codec.md R140). The byte-driven receiver of the machine is Machine/Receiver.lean.
-/

namespace Sys2Proof

/-- `le16(v) = [v[7:0], v[15:8]]` (00_scope.md R13; 20_memory.md R61). -/
def le16 (v : Half) : List Byte := [v.setWidth 8, (v >>> 8).setWidth 8]

/-- `u16(lo, hi) = lo | (hi << 8)` (00_scope.md R13). -/
def u16 (lo hi : Byte) : Half := lo.setWidth 16 ||| (hi.setWidth 16 <<< 8)

/-- `n` shifts of a CRC register, most significant bit first: the loop of 30_encoding.md R85 and R86. -/
def crcShifts {w : Nat} (poly : BitVec w) : Nat → BitVec w → BitVec w
  | 0, c => c
  | n + 1, c => if c.msb then crcShifts poly n ((c <<< 1) ^^^ poly) else crcShifts poly n (c <<< 1)

/-- CRC8, polynomial 0x07, initial value 0x00 (30_encoding.md R85). -/
def crc8 (bytes : List Byte) : Byte :=
  bytes.foldl (fun (c b : Byte) => crcShifts 0x07#8 8 (c ^^^ b)) 0x00#8

/-- CRC16, polynomial 0x1021, initial value 0xFFFF (30_encoding.md R86). -/
def crc16 (bytes : List Byte) : Half :=
  bytes.foldl (fun (c : Half) (b : Byte) => crcShifts 0x1021#16 8 (c ^^^ (BitVec.setWidth 16 b <<< 8))) 0xFFFF#16

/-- `crcbytes(crc(bytes))`: the CRC field of a frame whose covered bytes are `bytes`; CRC16 is sent low
byte first (30_encoding.md R84-R86, R61). -/
def crcField (p : Params) (bytes : List Byte) : List Byte :=
  match p.crcProfile with
  | .crc8 => [crc8 bytes]
  | .crc16 => le16 (crc16 bytes)

/-- The LENGTH byte of a payload; exact for the lengths the encoder admits (30_encoding.md R81). -/
def lengthByte (payload : List Byte) : Byte := BitVec.ofNat 8 payload.length

/-- The bytes the CRC covers: ADDRESS, COMMAND, LENGTH and PAYLOAD (30_encoding.md R84; 90_conflicts.md C1). -/
def coveredBytes (addr cmd : Byte) (payload : List Byte) : List Byte :=
  [addr, cmd, lengthByte payload] ++ payload

/-- `frame(addr, cmd, payload)` (30_encoding.md R80). No byte is escaped (R83). -/
def frameBytes (p : Params) (addr cmd : Byte) (payload : List Byte) : List Byte :=
  p.startByte :: coveredBytes addr cmd payload ++ crcField p (coveredBytes addr cmd payload)

/-- `Encode(addr, cmd, payload)`; `none` is EncodeFail (40_frame_codec.md R140). -/
def encodeFrame (p : Params) (addr cmd : Byte) (payload : List Byte) : Option (List Byte) :=
  if payload.length > p.maxPayload.toNat then none else some (frameBytes p addr cmd payload)

/-- The command map, first match wins (30_encoding.md R88; 41_commands.md R163). -/
def decodeCommand (p : Params) (addr cmd : Byte) (payload : List Byte) : Instr :=
  if cmd = p.cmdPing then .ping addr payload
  else if cmd = p.cmdReadInputs then .readInputs addr payload
  else if cmd = p.cmdSetOutputs then .setOutputs addr payload
  else .reserved addr cmd payload

/-- Why a byte sequence does not begin with a valid frame. -/
inductive DecodeError where
  /-- The first byte is not START_BYTE (30_encoding.md R103 (d)). -/
  | noStart
  /-- The bytes end before the frame does (30_encoding.md R82, R102). -/
  | truncated
  /-- LENGTH exceeds MAX_PAYLOAD (30_encoding.md R103 (a)). -/
  | oversize
  /-- The received CRC differs from the computed one (30_encoding.md R103 (b)). -/
  | badCrc
  deriving DecidableEq, Repr

/-- The frame that starts at the first byte, and the bytes after it (30_encoding.md R80-R84, R88). The frame's length is
told by its LENGTH byte alone (R102). -/
def decode (p : Params) : List Byte → Except DecodeError (Instr × List Byte)
  | start :: addr :: cmd :: len :: rest =>
    if start ≠ p.startByte then .error .noStart
    else if p.maxPayload < len then .error .oversize
    else if rest.length < len.toNat + p.crcProfile.bytes then .error .truncated
    else if (rest.drop len.toNat).take p.crcProfile.bytes
        = crcField p ([addr, cmd, len] ++ rest.take len.toNat) then
      .ok (decodeCommand p addr cmd (rest.take len.toNat),
        rest.drop (len.toNat + p.crcProfile.bytes))
    else .error .badCrc
  | [] => .error .truncated
  | start :: _ => if start ≠ p.startByte then .error .noStart else .error .truncated

/-- The frame of an instruction; `none` where its payload is too long for a frame (30_encoding.md R80; 40_frame_codec.md R140). -/
def encode (p : Params) (i : Instr) : Option (List Byte) :=
  encodeFrame p i.addr (i.cmd p) i.payload

/-- Byte k of a table word: the table's bits are those of the COMMAND byte and of what follows it, and every bit
from `nbits` on is 0 (log entry 7). -/
def tableByte (nbits w k : Nat) : Byte := BitVec.ofNat 8 ((w % 2 ^ nbits) / 2 ^ (8 * k))

/-- The frame to board `p.boardAddr` that carries a table word: COMMAND is byte 0, LENGTH byte 1, PAYLOAD the
bytes after it; START, ADDRESS and CRC are completed (spec/opcode_table.json, log entry 7). -/
def tableFrame (p : Params) (nbits w : Nat) : List Byte :=
  let cmd := tableByte nbits w 0
  let len := tableByte nbits w 1
  let payload := (List.range len.toNat).map fun k => tableByte nbits w (k + 2)
  p.startByte :: ([p.boardAddr, cmd, len] ++ payload)
    ++ crcField p ([p.boardAddr, cmd, len] ++ payload)

/-- The instruction the decoder reads from a table word under the spec's default parameters. -/
def decodeTableWord (nbits w : Nat) : Option Instr :=
  match decode Params.example (tableFrame Params.example nbits w) with
  | .ok (i, _) => some i
  | .error _ => none

end Sys2Proof
end

