-- ==== Sys2Proof/Machine/State.lean ====
section
/-!
DEFINITION. The state of the block (10_state.md): the configuration registers, the receiver, the transmitter and
line direction, the channels; beside them the model's own fields, which hold the environment's answers, the
values local to a pass, and the observation trace (R45). The reset state (R47, 70_reset_and_hazards.md R261), and
the reasons a step can stop.
-/

namespace Sys2Proof.Machine

/-- RX_PHASE, the receiver phase (10_state.md R22): which byte the receiver takes next (00_scope.md R17). -/
inductive RxPhase where
  | idle
  | gotAddress
  | gotCommand
  | gotLength
  | payload
  | gotCrc
  deriving DecidableEq, Repr

/-- The 3-bit encoding of RX_PHASE (10_state.md R22). -/
def RxPhase.code : RxPhase → BitVec 3
  | .idle => 0
  | .gotAddress => 1
  | .gotCommand => 2
  | .gotLength => 3
  | .payload => 4
  | .gotCrc => 5

/-- The phase an encoding holds; 6 and 7 are never held (10_state.md R22; 93 U1). -/
def RxPhase.ofCode (c : BitVec 3) : Option RxPhase :=
  [RxPhase.idle, .gotAddress, .gotCommand, .gotLength, .payload, .gotCrc][c.toNat]?

/-- DIR, the source's BusDirection (10_state.md R30). -/
inductive Direction where
  | receive
  | transmit
  deriving DecidableEq, Repr

/-- The 1-bit encoding of DIR (10_state.md R30). -/
def Direction.code : Direction → BitVec 1
  | .receive => 0
  | .transmit => 1

/-- TX_PHASE (10_state.md R31). -/
inductive TxPhase where
  | idle
  | turnaround
  | drain
  deriving DecidableEq, Repr

/-- The 2-bit encoding of TX_PHASE (10_state.md R31). -/
def TxPhase.code : TxPhase → BitVec 2
  | .idle => 0
  | .turnaround => 1
  | .drain => 2

/-- The phase an encoding holds; 3 is never held (10_state.md R31; 93 U1). -/
def TxPhase.ofCode (c : BitVec 2) : Option TxPhase :=
  [TxPhase.idle, .turnaround, .drain][c.toNat]?

/-- The reasons of a transport error (60_exceptions.md R232). -/
inductive TransportReason where
  | crc
  | oversize
  | timeout
  deriving DecidableEq, Repr

/-- The receiver events of the observation (10_state.md R45). -/
inductive RxEvent where
  /-- `FRAME_OK`: a valid frame completed (40_frame_codec.md R128). -/
  | frameOk
  /-- `ERR_CRC`, `ERR_OVERSIZE` or `ERR_TIMEOUT` (60_exceptions.md R232). -/
  | error (reason : TransportReason)
  /-- `DROPPED`: a byte discarded while a response is pending or in flight (42_control_loop.md R193, R195). -/
  | dropped
  deriving DecidableEq, Repr

/-- One event of the observation of a run (10_state.md R45). -/
inductive Event where
  /-- `Dir(d)`: a `set_direction(d)`. -/
  | dir (d : Direction)
  /-- `Tx(s)`: a `write_bytes(s)`. -/
  | tx (bytes : List Byte)
  /-- `Outputs(v)`: a `set_outputs(v)`. -/
  | outputs (values : ChannelValues)
  /-- `Sample(ok)`: a `sample_inputs()` and whether it succeeded. -/
  | sample (ok : Bool)
  /-- `Rx(e)`: a receiver event. -/
  | rx (e : RxEvent)
  deriving DecidableEq, Repr

/-- One input channel (10_state.md R34). -/
structure InputChannel where
  /-- The last good raw ADC value, 16 bits. -/
  raw : Half
  /-- The tick of the pass in which it was sampled, TICK_W bits. -/
  tick : Nat
  deriving DecidableEq, Repr, Inhabited

/-- The receiver registers (10_state.md section 2). -/
structure Receiver where
  /-- RX_PHASE (R22). -/
  phase : RxPhase
  /-- RX_ADDR, 8 bits (R23). -/
  addr : Byte
  /-- RX_CMD, 8 bits (R24). -/
  cmd : Byte
  /-- RX_LEN, 8 bits (R25). -/
  len : Byte
  /-- RX_K, 8 bits (R26). -/
  k : Byte
  /-- BUF, MAX_PAYLOAD bytes (R27). -/
  buf : List Byte
  /-- RX_J, 1 bit (R28): one CRC byte has been received. -/
  j : Bool
  /-- RX_CRC, 8 bits (R28). -/
  crc : Byte
  /-- LAST_RX_TICK, TICK_W bits (R29). -/
  lastTick : Nat
  deriving DecidableEq, Repr

/-- The transmitter and line-direction registers (10_state.md section 3). -/
structure Transmitter where
  /-- DIR (R30). -/
  dir : Direction
  /-- TX_PHASE (R31). -/
  phase : TxPhase
  /-- TXBUF (R32). -/
  buf : List Byte
  /-- TX_LEN (R32). -/
  len : Nat
  /-- TX_T0, TICK_W bits (R33). -/
  t0 : Nat
  deriving DecidableEq, Repr

/-- The channel state (10_state.md section 4). -/
structure Channels where
  /-- IN[0..15] (R34). -/
  inputs : Vector InputChannel channelCount
  /-- STALE (R35). -/
  stale : Bool
  /-- OUT[0..15] (R36). -/
  out : ChannelValues
  /-- APPLIED[0..15] (R37). -/
  applied : ChannelValues
  /-- APPLIED_VALID (R37). -/
  appliedValid : Bool
  /-- LAST_CAD, TICK_W bits (R38). -/
  lastCad : Nat
  /-- CAD_PRIMED (R38). -/
  cadPrimed : Bool
  deriving DecidableEq, Repr

/-- The whole state. `cfg`, `rx`, `tx` and `ch` are the spec's registers; the fields after them are the model's own. -/
structure State where
  /-- The configuration registers (10_state.md R20, R21). -/
  cfg : Params
  /-- The receiver registers (10_state.md section 2). -/
  rx : Receiver
  /-- The transmitter and line-direction registers (10_state.md section 3). -/
  tx : Transmitter
  /-- The channel state (10_state.md section 4). -/
  ch : Channels
  /-- The one tick value the current pass read (10_state.md R44; 42_control_loop.md R191). -/
  now : Nat
  /-- Whether the clock kept its bounds since the pass before the current one (93 U4). -/
  clockOk : Bool
  /-- The drain's `responding` (42_control_loop.md R192). -/
  responding : Bool
  /-- How many free `elapsed` values have been taken (93 U4). -/
  freeCount : Nat
  /-- How many passes have begun. -/
  passes : Nat
  /-- The environment's answers lined up for the next passes, the next pass first. -/
  pending : List PassInput
  /-- The observation, oldest event first (10_state.md R45). -/
  trace : List Event
  deriving DecidableEq, Repr

/-- Why a step stops with a fault. -/
inductive Fault where
  /-- `write_bytes` was called with the transceiver in Receive (70_reset_and_hazards.md R265 calls it a fault of the
  block). Raised by `writeBytes`; safe. No state that meets the invariants of 10_state.md R40 reaches it. -/
  | writeInReceive
  deriving DecidableEq, Repr

/-- Why a step is refused. -/
inductive Refusal where
  /-- An instruction without a meaning yet, by its mnemonic. No arm answers it; safe. -/
  | notModelled (mnemonic : String)
  /-- The configuration breaks a premise of 70_reset_and_hazards.md R263, and the spec gives no meaning (93 U3: refuse).
  Raised by the pass; safe. -/
  | configurationOutsidePremises
  /-- The state breaks an invariant of 10_state.md R40 or a register's width; unreachable, and the spec gives no meaning
  (93 U2: refuse). Raised by the pass; safe. -/
  | stateOutsideInvariants
  deriving DecidableEq, Repr

/-- The outcome of a step or of a meaning. -/
abbrev Result := Host.Outcome State Fault Refusal

/-- The state after reset under a configuration: the values of 10_state.md R47, and the one `set_direction(Receive)` of
70_reset_and_hazards.md R261 in the trace. -/
def State.resetWith (p : Params) : State where
  cfg := p
  rx := { phase := .idle, addr := 0, cmd := 0, len := 0, k := 0,
          buf := List.replicate p.maxPayload.toNat 0, j := false, crc := 0, lastTick := 0 }
  tx := { dir := .receive, phase := .idle, buf := [], len := 0, t0 := 0 }
  ch := { inputs := Vector.replicate channelCount { raw := 0, tick := 0 }, stale := true,
          out := Vector.replicate channelCount 0, applied := Vector.replicate channelCount 0,
          appliedValid := false, lastCad := 0, cadPrimed := false }
  now := 0
  clockOk := true
  responding := false
  freeCount := 0
  passes := 0
  pending := []
  trace := [.dir .receive]

/-- The machine right after reset, under the defaults of the spec and, where the spec gives none, the values of log
entry 1. -/
def State.reset : State := State.resetWith Params.example

end Sys2Proof.Machine
end

