-- ==== Sys2Proof/Machine/Ops.lean ====
section
/-!
DEFINITION. The named operations the machine is built from: the observation, the tick arithmetic, the outward ports, the entry of a
transport error and of a command error (the block's exceptions, 60_exceptions.md), and the response path.
-/

namespace Sys2Proof.Machine

/-- Go on with the next state, or stop as the first part stopped. -/
def andThen (o : Result) (f : State → Result) : Result :=
  match o with
  | .next s => f s
  | .fault r => .fault r
  | .refused r => .refused r

/-- Append one event to the observation (10_state.md R45). -/
def State.record (e : Event) (s : State) : State := { s with trace := s.trace ++ [e] }

/-! ### Ticks -/

/-- `elapsed(now, t) = (now − t) mod 2^TICK_W` (00_scope.md R13), for tick values below `2^TICK_W`. -/
def elapsed (tickW now t : Nat) : Nat := (now + (2 ^ tickW - t)) % 2 ^ tickW

/-- One `elapsed(now, t)` of the current pass. Where the environment broke its duty towards the clock, a free value within
the range of 00_scope.md R13 (93 U4). -/
def State.readElapsed (t : Nat) (s : State) : Nat × State :=
  if s.clockOk then (elapsed s.cfg.tickW s.now t, s)
  else (Config.freeElapsed s.freeCount % 2 ^ s.cfg.tickW, { s with freeCount := s.freeCount + 1 })

/-! ### Outward ports (10_state.md R41) -/

/-- `set_direction(d)`: DIR always equals the last direction set (10_state.md R30, R42). -/
def State.setDirection (d : Direction) (s : State) : State :=
  { s with tx := { s.tx with dir := d }, trace := s.trace ++ [.dir d] }

/-- `write_bytes(bs)`, which must only be called while the direction is Transmit (70_reset_and_hazards.md R265). -/
def State.writeBytes (bs : List Byte) (s : State) : Result :=
  if s.tx.dir = .transmit then .next (s.record (.tx bs)) else .fault .writeInReceive

/-- `set_outputs(v)`, atomic (20_memory.md R66). -/
def State.pushOutputs (v : ChannelValues) (s : State) : State := s.record (.outputs v)

/-! ### Errors -/

/-- `raise TransportError(reason)` (60_exceptions.md R231): the frame in progress is discarded, the receiver is back in Idle,
the event is recorded, nothing is sent. -/
def State.transportError (reason : TransportReason) (s : State) : State :=
  { s with rx := { s.rx with phase := .idle, j := false }, trace := s.trace ++ [.rx (.error reason)] }

/-- What a command answers: the state after its effect, and the response's COMMAND and PAYLOAD
(`respond(cmd, payload)`, 00_scope.md R15). -/
structure Answer where
  state : State
  cmd : Byte
  payload : List Byte
  deriving DecidableEq, Repr

/-- `raise CommandError(code)` for a request with command byte `cmd` (60_exceptions.md R234; 41_commands.md R165): no
effect, and the error response of 30_encoding.md R95. -/
def State.commandError (code cmd : Byte) (s : State) : Answer :=
  { state := s, cmd := s.cfg.rspError, payload := [code, cmd] }

/-! ### Responses -/

/-- TXBUF, TX_LEN, TX_T0 and TX_PHASE as a response leaves them (42_control_loop.md R196). -/
def State.loadTx (f : List Byte) (s : State) : State :=
  { s with tx := { s.tx with phase := .turnaround, buf := f, len := f.length, t0 := s.now } }

/-- `StartResponse(rc, rp, now)` (42_control_loop.md R196); nothing is sent where the encoder fails (40_frame_codec.md R141). -/
def State.startResponse (rc : Byte) (rp : List Byte) (s : State) : State :=
  match encodeFrame s.cfg s.cfg.boardAddr rc rp with
  | none => s
  | some f => (s.setDirection .transmit).loadTx f

/-- The drain's handling of a response: start it, and drop the rest of the drain (42_control_loop.md R192, R195). -/
def State.respond (rc : Byte) (rp : List Byte) (s : State) : State :=
  { s.startResponse rc rp with responding := true }

/-- `Dispatch` around a command (41_commands.md R160): the address filter (R161), the command, and the response, which a
broadcast frame never produces (R162). -/
def State.dispatch (addr : Byte) (command : State → Answer) (s : State) : State :=
  if addr ≠ s.cfg.boardAddr ∧ addr ≠ s.cfg.broadcastAddr then s
  else if addr = s.cfg.broadcastAddr then (command s).state
  else (command s).state.respond (command s).cmd (command s).payload

/-! ### Reset -/

/-- A reset of a running block (70_reset_and_hazards.md R260-R262): the configuration is latched, every register takes its
value of 10_state.md R47, `set_direction(Receive)` is issued once, and what the environment holds stands. No step
does this: a reset is an event from outside. -/
def State.externalReset (p : Params) (s : State) : State :=
  { State.resetWith p with
    freeCount := s.freeCount
    passes := s.passes
    pending := s.pending
    trace := s.trace ++ [.dir .receive] }

end Sys2Proof.Machine
end

