-- ==== Sys2Proof/Machine/Operands.lean ====
section
/-!
DEFINITION. The operand and result layouts of the commands (30_encoding.md section 4): the 16-channel array of 16-bit
little-endian values, and the payloads of the responses.
-/

namespace Sys2Proof.Machine

/-- The payload layout of a 16-channel array, channel i at offsets 2i and 2i + 1 (30_encoding.md R91, R93). -/
def channelBytes (v : ChannelValues) : List Byte := v.toList.flatMap le16

/-- `d[i] = u16(p[2i], p[2i+1])` for the 16 channels of a 32-byte payload (41_commands.md R175; 30_encoding.md R92). -/
def dutyValues (payload : List Byte) : ChannelValues :=
  Vector.ofFn fun i => u16 (payload.getD (2 * i.val) 0) (payload.getD (2 * i.val + 1) 0)

/-- Some `d[i] > MAX_DUTY` (41_commands.md R177). -/
abbrev OutOfRange (p : Params) (d : ChannelValues) : Prop :=
  ∃ i : Fin channelCount, p.maxDuty < d[i]

/-- The raw values of the 16 input channels (41_commands.md R171). -/
def State.rawInputs (s : State) : ChannelValues := Vector.ofFn fun i => s.ch.inputs[i].raw

end Sys2Proof.Machine
end

