-- ==== Sys2Proof/Machine/Flags.lean ====
section
/-!
DEFINITION. The flags (10_state.md R39). The block has no condition codes and no command computes a flag; the STATUS byte shows
STALE (30_encoding.md R99), and the conditions below are the ones the loop reads from CAD_PRIMED and APPLIED_VALID.
-/

namespace Sys2Proof.Machine

/-- `zext_8(STALE)`: bit 0 is STALE, bits 7:1 are 0 (30_encoding.md R99; 41_commands.md R166). -/
def State.statusByte (s : State) : Byte := (BitVec.ofBool s.ch.stale).setWidth 8

/-- The PING response payload (30_encoding.md R98). -/
def State.pingPayload (s : State) : List Byte :=
  [s.cfg.protocolVersion] ++ le16 s.cfg.fwVersion ++ [s.cfg.boardAddr, s.statusByte]

/-- STALE after a sampling attempt (10_state.md R35; 42_control_loop.md R201, R202). -/
def State.setStale (stale : Bool) (s : State) : State := { s with ch := { s.ch with stale := stale } }

/-- The PWM refresh is due: nothing has been applied since reset, or OUT differs from APPLIED
(42_control_loop.md R203; 10_state.md R37). -/
abbrev State.RefreshDue (s : State) : Prop :=
  s.ch.appliedValid = false ∨ ∃ i : Fin channelCount, s.ch.out[i] ≠ s.ch.applied[i]

end Sys2Proof.Machine
end

