-- ==== Sys2Proof/Machine/Premises.lean ====
section
/-!
DEFINITION. The premises under which the spec gives the block a meaning: the configuration premises of 70_reset_and_hazards.md R263,
and the invariants of 10_state.md R40 with the widths of the registers (93 U2, U3).
-/

namespace Sys2Proof.Machine

/-- BOARD_ADDR's premise (70_reset_and_hazards.md R263), with the one case outside it to which 41_commands.md R162
gives a meaning: BOARD_ADDR = 255 = BROADCAST_ADDR, the "unassigned" board (log entry 8). -/
abbrev AddressPremise (p : Params) : Prop :=
  (p.boardAddr ≤ 254 ∧ p.broadcastAddr ≠ p.boardAddr) ∨ (p.boardAddr = 255 ∧ p.broadcastAddr = 255)

/-- The four command codes are pairwise distinct (70_reset_and_hazards.md R263). -/
abbrev CommandCodesDistinct (p : Params) : Prop :=
  [p.cmdPing, p.cmdReadInputs, p.cmdSetOutputs, p.rspError].Pairwise (· ≠ ·)

/-- The three error codes are pairwise distinct (70_reset_and_hazards.md R263). -/
abbrev ErrorCodesDistinct (p : Params) : Prop :=
  [p.errBadLength, p.errUnknownCommand, p.errInvalidValue].Pairwise (· ≠ ·)

/-- The timing parameters are in their domains (00_scope.md R10; 70_reset_and_hazards.md R263). -/
abbrev TimingPremise (p : Params) : Prop :=
  p.interbyteTimeout < 2 ^ p.tickW ∧ p.turnaroundTicks < 2 ^ p.tickW
    ∧ 1 ≤ p.samplePeriod ∧ p.samplePeriod < 2 ^ p.tickW

/-- The configuration premises of 70_reset_and_hazards.md R263. -/
abbrev Valid (p : Params) : Prop :=
  AddressPremise p ∧ 32 ≤ p.maxPayload ∧ CommandCodesDistinct p ∧ ErrorCodesDistinct p
    ∧ TimingPremise p

/-- The receiver's part of 10_state.md R40 ((a), (e)) and the ranges of R25, R27, R29. -/
abbrev ReceiverWf (p : Params) (r : Receiver) : Prop :=
  (r.phase = .payload → r.k < r.len) ∧ r.len ≤ p.maxPayload
    ∧ (r.j = true → r.phase = .gotCrc ∧ p.crcProfile = .crc16)
    ∧ r.buf.length = p.maxPayload.toNat ∧ r.lastTick < 2 ^ p.tickW

/-- The transmitter's part of 10_state.md R40 ((b)) and the ranges of R32, R33. -/
abbrev TransmitterWf (p : Params) (t : Transmitter) : Prop :=
  (t.dir = .transmit ↔ t.phase ≠ .idle) ∧ t.len ≤ t.buf.length
    ∧ t.buf.length ≤ 4 + p.maxPayload.toNat + p.crcProfile.bytes ∧ t.t0 < 2 ^ p.tickW

/-- The channels' part of 10_state.md R40 ((d)) and the ranges of R34, R38. -/
abbrev ChannelsWf (p : Params) (c : Channels) : Prop :=
  (∀ i : Fin channelCount, c.out[i] ≤ p.maxDuty) ∧ (∀ i : Fin channelCount, c.inputs[i].tick < 2 ^ p.tickW)
    ∧ c.lastCad < 2 ^ p.tickW

/-- The invariants of 10_state.md R40 and the widths of the registers. -/
abbrev Wf (s : State) : Prop :=
  ReceiverWf s.cfg s.rx ∧ TransmitterWf s.cfg s.tx ∧ (s.tx.phase ≠ .idle → s.rx.phase = .idle)
    ∧ ChannelsWf s.cfg s.ch ∧ s.now < 2 ^ s.cfg.tickW

end Sys2Proof.Machine
end

