-- ==== Sys2Proof/Machine/DataCommands.lean ====
section
/-!
DEFINITION. The commands that move channel data (41_commands.md R186): READ_INPUTS (section 3) and SET_OUTPUTS (section 4).
-/

namespace Sys2Proof.Machine

/-- READ_INPUTS's command rule (41_commands.md R171, R172): a snapshot of the 16 raw values; no sample is taken. -/
def readInputsCommand (payload : List Byte) (s : State) : Answer :=
  if payload.length ≠ 0 then s.commandError s.cfg.errBadLength s.cfg.cmdReadInputs
  else { state := s, cmd := s.cfg.cmdReadInputs, payload := channelBytes s.rawInputs }

/-- READ_INPUTS (41_commands.md R160-R162, R171, R172). -/
def execReadInputs (addr : Byte) (payload : List Byte) (s : State) : Result :=
  .next (s.dispatch addr (readInputsCommand payload))

/-- OUT[0..15] <- d, all 16 in one step (41_commands.md R175; 20_memory.md R66). -/
def State.storeOutputs (d : ChannelValues) (s : State) : State :=
  { s with ch := { s.ch with out := d } }

/-- SET_OUTPUTS's command rule: the length first, then the values (41_commands.md R164, R175-R177). -/
def setOutputsCommand (payload : List Byte) (s : State) : Answer :=
  if payload.length ≠ 32 then s.commandError s.cfg.errBadLength s.cfg.cmdSetOutputs
  else if OutOfRange s.cfg (dutyValues payload) then
    s.commandError s.cfg.errInvalidValue s.cfg.cmdSetOutputs
  else { state := s.storeOutputs (dutyValues payload), cmd := s.cfg.cmdSetOutputs, payload := [] }

/-- SET_OUTPUTS (41_commands.md R160-R162, R175-R177). -/
def execSetOutputs (addr : Byte) (payload : List Byte) (s : State) : Result :=
  .next (s.dispatch addr (setOutputsCommand payload))

end Sys2Proof.Machine
end

