-- ==== Sys2Proof/Machine/SystemCommands.lean ====
section
/-!
DEFINITION. The commands without channel operands: PING (41_commands.md section 2, R187) and the reserved range (section 5).
-/

namespace Sys2Proof.Machine

/-- PING's command rule (41_commands.md R166, R167). -/
def pingCommand (payload : List Byte) (s : State) : Answer :=
  if payload.length ≠ 0 then s.commandError s.cfg.errBadLength s.cfg.cmdPing
  else { state := s, cmd := s.cfg.cmdPing, payload := s.pingPayload }

/-- PING (41_commands.md R160-R162, R166, R167). -/
def execPing (addr : Byte) (payload : List Byte) (s : State) : Result :=
  .next (s.dispatch addr (pingCommand payload))

/-- A reserved command's rule: LENGTH and PAYLOAD are not examined (41_commands.md R179). -/
def reservedCommand (cmd : Byte) (s : State) : Answer :=
  s.commandError s.cfg.errUnknownCommand cmd

/-- A reserved command (41_commands.md R160-R162, R179). -/
def execReserved (addr cmd : Byte) (_payload : List Byte) (s : State) : Result :=
  .next (s.dispatch addr (reservedCommand cmd))

end Sys2Proof.Machine
end

