-- ==== Sys2Proof/Machine/Dispatch.lean ====
section
/-!
DEFINITION. The command dispatcher's selection (41_commands.md R163): one arm per constructor of Instr.
-/

namespace Sys2Proof.Machine

/-- The effect of one received, validated frame (00_scope.md R3; 41_commands.md R160). -/
def exec (i : Instr) (s : State) : Host.Outcome State Fault Refusal :=
  match i with
  | .ping addr payload => Sys2Proof.Machine.execPing addr payload s
  | .readInputs addr payload => Sys2Proof.Machine.execReadInputs addr payload s
  | .setOutputs addr payload => Sys2Proof.Machine.execSetOutputs addr payload s
  | .reserved addr cmd payload => Sys2Proof.Machine.execReserved addr cmd payload s

end Sys2Proof.Machine
end

