-- ==== Sys2Proof/Machine/Receiver.lean ====
section
/-!
DEFINITION. The receive side of the frame codec (40_frame_codec.md sections 1 and 2), one definition per transition.
-/

namespace Sys2Proof.Machine

/-- `frame(addr, cmd, n, p)` with `n = p.length`, what a completed frame hands to the dispatcher
(40_frame_codec.md R128). -/
structure Frame where
  addr : Byte
  cmd : Byte
  payload : List Byte
  deriving DecidableEq, Repr

/-- The mid-frame condition and the comparison of TimeoutCheck (40_frame_codec.md R121; 42_control_loop.md R204). -/
def State.timeoutCheck (s : State) : State :=
  if s.rx.phase = .idle then s
  else
    let e := s.readElapsed s.rx.lastTick
    if s.cfg.interbyteTimeout < e.1 then e.2.transportError .timeout else e.2

/-- Phase Idle (40_frame_codec.md R122): any byte but START_BYTE is ignored. -/
def State.rxIdle (b : Byte) (s : State) : State :=
  if b = s.cfg.startByte then { s with rx := { s.rx with phase := .gotAddress } } else s

/-- Phase GotAddress (40_frame_codec.md R123): the address is not checked here. -/
def State.rxGotAddress (b : Byte) (s : State) : State :=
  { s with rx := { s.rx with addr := b, phase := .gotCommand } }

/-- Phase GotCommand (40_frame_codec.md R124): the command is not decoded here. -/
def State.rxGotCommand (b : Byte) (s : State) : State :=
  { s with rx := { s.rx with cmd := b, phase := .gotLength } }

/-- Phase GotLength (40_frame_codec.md R125). -/
def State.rxGotLength (b : Byte) (s : State) : State :=
  if s.cfg.maxPayload < b then s.transportError .oversize
  else
    { s with rx := { s.rx with len := b, k := 0, j := false,
                               phase := if b = 0 then .gotCrc else .payload } }

/-- Phase Payload (40_frame_codec.md R126). -/
def State.rxPayload (b : Byte) (s : State) : State :=
  let r := { s.rx with buf := s.rx.buf.set s.rx.k.toNat b, k := s.rx.k + 1 }
  { s with rx := if r.k = r.len then { r with phase := .gotCrc, j := false } else r }

/-- Phase GotCRC, first of two CRC bytes (40_frame_codec.md R127). -/
def State.rxFirstCrc (b : Byte) (s : State) : State :=
  { s with rx := { s.rx with crc := b, j := true } }

/-- BUF[0 .. RX_LEN − 1] (10_state.md R27). -/
def Receiver.heldPayload (r : Receiver) : List Byte := r.buf.take r.len.toNat

/-- The received CRC equals the one computed over the stored fields (40_frame_codec.md R128). -/
def State.crcMatches (b : Byte) (s : State) : Bool :=
  match s.cfg.crcProfile with
  | .crc8 => decide (b = crc8 ([s.rx.addr, s.rx.cmd, s.rx.len] ++ s.rx.heldPayload))
  | .crc16 => decide (u16 s.rx.crc b = crc16 ([s.rx.addr, s.rx.cmd, s.rx.len] ++ s.rx.heldPayload))

/-- Phase GotCRC, last CRC byte: Complete (40_frame_codec.md R128) or Error (R129). The byte is consumed either way. -/
def State.rxLastCrc (b : Byte) (s : State) : Option Frame × State :=
  if s.crcMatches b = true then
    (some { addr := s.rx.addr, cmd := s.rx.cmd, payload := s.rx.heldPayload },
      { s with rx := { s.rx with phase := .idle, j := false }, trace := s.trace ++ [.rx .frameOk] })
  else (none, s.transportError .crc)

/-- The transition that RX_PHASE (and, in GotCRC, RX_J) selects (40_frame_codec.md R120). -/
def State.rxTransition (b : Byte) (s : State) : Option Frame × State :=
  match s.rx.phase with
  | .idle => (none, s.rxIdle b)
  | .gotAddress => (none, s.rxGotAddress b)
  | .gotCommand => (none, s.rxGotCommand b)
  | .gotLength => (none, s.rxGotLength b)
  | .payload => (none, s.rxPayload b)
  | .gotCrc =>
    if s.cfg.crcProfile = .crc16 ∧ s.rx.j = false then (none, s.rxFirstCrc b) else s.rxLastCrc b

/-- LAST_RX_TICK <- now (40_frame_codec.md R120). -/
def State.touchRx (s : State) : State := { s with rx := { s.rx with lastTick := s.now } }

/-- `RxByte(b, now)` (40_frame_codec.md R120): the timeout check, the tick, then one transition. -/
def State.rxByte (b : Byte) (s : State) : Option Frame × State :=
  s.timeoutCheck.touchRx.rxTransition b

end Sys2Proof.Machine
end

