-- ==== Sys2Proof/Machine/Loop.lean ====
section
/-!
DEFINITION. The control loop (42_control_loop.md): the five steps of a pass, and what the environment answers to it.
-/

namespace Sys2Proof.Machine

/-! ### The environment's answers -/

/-- What the environment answers in the next pass: what is lined up, or else a free value (log entry 4). -/
def State.nextInput (s : State) : PassInput :=
  match s.pending with
  | [] => Config.environment s.passes
  | inp :: _ => inp

/-- The pass reads `now()` once, first (42_control_loop.md R190, R191); the drain has not responded yet (R192). -/
def State.beginPass (s : State) : State :=
  { s with
    now := s.nextInput.now % 2 ^ s.cfg.tickW
    clockOk := s.nextInput.clockOk
    responding := false
    passes := s.passes + 1
    pending := s.pending.tail }

/-! ### Steps 1 and 2 -/

/-- A byte is dropped: a response is pending or in flight, or was produced earlier in this drain
(42_control_loop.md R192, R193, R195). -/
abbrev State.Dropping (s : State) : Prop := s.tx.phase ≠ .idle ∨ s.responding = true

/-- Hand a completed frame to the dispatcher (40_frame_codec.md R131; 41_commands.md R160, R163). -/
def dispatchFrame (f : Frame) (s : State) : Result :=
  exec (decodeCommand s.cfg f.addr f.cmd f.payload) s

/-- One byte of the drain (42_control_loop.md R192, R194). -/
def drainByte (b : Byte) (s : State) : Result :=
  if s.Dropping then .next (s.record (.rx .dropped))
  else
    match (s.rxByte b).1 with
    | none => .next (s.rxByte b).2
    | some f => dispatchFrame f (s.rxByte b).2

/-- `Drain(now)` over the bytes the UART offers in this pass (42_control_loop.md R192). -/
def drain : List Byte → State → Result
  | [], s => .next s
  | b :: q, s => andThen (drainByte b s) (drain q)

/-! ### Step 3 -/

/-- TX_TURNAROUND: hand the response to the UART once the turnaround time has passed (42_control_loop.md R197). -/
def turnaroundStep (s : State) : Result :=
  if s.tx.phase = .turnaround then
    let e := s.readElapsed s.tx.t0
    if s.cfg.turnaroundTicks ≤ e.1 then
      andThen (e.2.writeBytes (e.2.tx.buf.take e.2.tx.len)) fun s1 =>
        .next { s1 with tx := { s1.tx with phase := .drain } }
    else .next e.2
  else .next s

/-- Return to Receive (42_control_loop.md R199). -/
def State.returnToReceive (s : State) : State :=
  let s1 := s.setDirection .receive
  { s1 with tx := { s1.tx with phase := .idle, len := 0 } }

/-- TX_DRAIN: `transmit_complete()` is asked once; the pass does not wait (42_control_loop.md R198). -/
def drainStep (complete : Bool) (s : State) : State :=
  if s.tx.phase = .drain ∧ complete = true then s.returnToReceive else s

/-- `TransmitStep(now)` (42_control_loop.md R197-R199). -/
def transmitStep (complete : Bool) (s : State) : Result :=
  andThen (turnaroundStep s) fun s1 => .next (drainStep complete s1)

/-! ### Step 4 -/

/-- IN <- v with the pass's tick, STALE <- 0 (42_control_loop.md R201). -/
def State.sampleSuccess (v : ChannelValues) (s : State) : State :=
  ({ s with ch := { s.ch with inputs := Vector.ofFn fun i => { raw := v[i], tick := s.now } } }.setStale
    false).record (.sample true)

/-- STALE <- 1, IN unchanged (42_control_loop.md R202). -/
def State.sampleFailure (s : State) : State := (s.setStale true).record (.sample false)

/-- `sample_inputs()` is called: the cadence is set, then the result is taken (42_control_loop.md R200). -/
def State.takeSample (result : Option ChannelValues) (s : State) : State :=
  let s1 := { s with ch := { s.ch with lastCad := s.now, cadPrimed := true } }
  match result with
  | some v => s1.sampleSuccess v
  | none => s1.sampleFailure

/-- `SampleStep(now)` (42_control_loop.md R200). -/
def sampleStep (result : Option ChannelValues) (s : State) : State :=
  if s.ch.cadPrimed = false then s.takeSample result
  else
    let e := s.readElapsed s.ch.lastCad
    if s.cfg.samplePeriod ≤ e.1 then e.2.takeSample result else e.2

/-- `PwmRefresh()` (42_control_loop.md R203). -/
def pwmRefresh (s : State) : State :=
  if s.RefreshDue then
    { s.pushOutputs s.ch.out with ch := { s.ch with applied := s.ch.out, appliedValid := true } }
  else s

/-! ### The pass -/

/-- Steps 3 to 5 of a pass (42_control_loop.md R190). -/
def finishPass (inp : PassInput) (s : State) : Result :=
  andThen (transmitStep inp.txComplete s) fun s1 =>
    .next (pwmRefresh (sampleStep inp.sample s1)).timeoutCheck

/-- `Pass()` (42_control_loop.md R190). -/
def pass (s : State) : Result :=
  andThen (drain s.nextInput.rx s.beginPass) (finishPass s.nextInput)

/-- A pass where the spec's premises hold; refused by name where they do not, since the spec then gives no meaning
(93 U2, U3). -/
def runPass (s : State) : Result :=
  if Valid s.cfg then
    if Wf s then pass s else .refused .stateOutsideInvariants
  else .refused .configurationOutsidePremises

/-! ### Placing a frame -/

/-- A pass's answers with nothing to say: no tick since the last pass, no byte, transmission still running, no sample. -/
def State.quietInput (s : State) : PassInput :=
  { now := s.now, clockOk := true, rx := [], txComplete := false, sample := none }

/-- The state in which the next pass drains exactly `bytes` with the receiver in Idle and the line free: the
environment's other answers for that pass stand as they are lined up (log entry 6). -/
def State.offerBytes (bytes : List Byte) (s : State) : State :=
  { s with
    rx := { s.rx with phase := .idle, j := false }
    tx := { s.tx with dir := .receive, phase := .idle }
    pending := { s.pending.headD s.quietInput with rx := bytes, clockOk := true } :: s.pending.tail }

end Sys2Proof.Machine
end

