-- ==== Sys2Proof/Machine/Step.lean ====
section
/-!
DEFINITION. One step of the machine is one pass of the control loop (42_control_loop.md R190).
-/

namespace Sys2Proof.Machine

/-- One pass of the block. -/
def step (s : State) : Host.Outcome State Fault Refusal := runPass s

/-- The state whose next pass receives the frame of a table word, addressed to this board (log entry 6). -/
def State.withFetchWord (s : State) (nbits w : Nat) : State :=
  s.offerBytes (tableFrame s.cfg nbits w)

end Sys2Proof.Machine
end

