-- ==== Sys2Proof/Machine/Script.lean ====
section
/-!
DEFINITION. The frame-script notation (30_encoding.md R104, R105): the bytes each statement puts on the wire, the pass in which they
arrive, and what the EXPECT statements ask of the observation. The machine does not use it; tests are written in it.
-/

namespace Sys2Proof.Machine

/-- A statement that sends bytes (30_encoding.md R104) or stands for one that does (R105). -/
inductive ScriptLine where
  /-- `PING @a` -/
  | ping (addr : Byte)
  /-- `READ_INPUTS @a` -/
  | readInputs (addr : Byte)
  /-- `SET_OUTPUTS @a, d0, ..., d15` -/
  | setOutputs (addr : Byte) (d : ChannelValues)
  /-- `FRAME @a, cmd, [p0, ..., pn-1]` -/
  | frame (addr cmd : Byte) (payload : List Byte)
  /-- `RAW b0, b1, ...` -/
  | raw (bytes : List Byte)
  /-- `SET_ALL @a, v` -/
  | setAll (addr : Byte) (v : Half)
  /-- `BCAST_SET_OUTPUTS d0, ..., d15` -/
  | bcastSetOutputs (d : ChannelValues)
  /-- `BAD_CRC <frame statement>` -/
  | badCrc (line : ScriptLine)
  deriving Repr

/-- The last byte exclusive-ored with 0x01 (30_encoding.md R105). -/
def flipLast : List Byte → List Byte
  | [] => []
  | [b] => [b ^^^ 0x01#8]
  | b :: c :: rest => b :: flipLast (c :: rest)

/-- The bytes a statement puts on the wire (30_encoding.md R104, R105). -/
def ScriptLine.bytes (p : Params) : ScriptLine → List Byte
  | .ping a => frameBytes p a p.cmdPing []
  | .readInputs a => frameBytes p a p.cmdReadInputs []
  | .setOutputs a d => frameBytes p a p.cmdSetOutputs (channelBytes d)
  | .frame a cmd payload => frameBytes p a cmd payload
  | .raw bytes => bytes
  | .setAll a v => frameBytes p a p.cmdSetOutputs (channelBytes (Vector.replicate channelCount v))
  | .bcastSetOutputs d => frameBytes p p.broadcastAddr p.cmdSetOutputs (channelBytes d)
  | .badCrc line => flipLast (line.bytes p)

/-- `AT t` with the statements that follow it, and `PASS t` with none (30_encoding.md R104): the lines' bytes arrive in the
pass whose `now()` is t. The other answers of that pass are named by the program beside the script. -/
def passAt (p : Params) (t : Nat) (lines : List ScriptLine) (txComplete : Bool)
    (sample : Option ChannelValues) : PassInput :=
  { now := t, clockOk := true, rx := lines.flatMap (ScriptLine.bytes p), txComplete := txComplete,
    sample := sample }

/-- The `write_bytes` calls of an observation, oldest first. -/
def txCalls (events : List Event) : List (List Byte) :=
  events.filterMap fun e => match e with
    | .tx bs => some bs
    | _ => none

/-- `EXPECT_TX b0, b1, ...`: the next `write_bytes` call carries exactly these bytes (30_encoding.md R104). -/
abbrev ExpectTx (bytes : List Byte) (events : List Event) : Prop := (txCalls events).head? = some bytes

/-- `EXPECT_NO_TX`: there is no `write_bytes` call (30_encoding.md R104). -/
abbrev ExpectNoTx (events : List Event) : Prop := txCalls events = []

end Sys2Proof.Machine
end

