-- ==== Sys2Proof/Safety.lean ====
section
/-!
DEFINITION. The terms the claims use: the state a whole received frame leaves, the state a started response leaves, what
the observation says of the line and the channels, and what counts as a safe outcome.
-/

namespace Sys2Proof.Machine

/-! ### Frames and responses, as states -/

/-- The receiver registers and the event that a completed frame leaves (40_frame_codec.md R122-R128). -/
def State.frameHeld (i : Instr) (s : State) : State :=
  { s with
    rx :=
      { phase := .idle
        addr := i.addr
        cmd := i.cmd s.cfg
        len := lengthByte i.payload
        k := lengthByte i.payload
        buf := i.payload ++ s.rx.buf.drop i.payload.length
        j := false
        crc := if s.cfg.crcProfile = .crc16 then
            (crc16 (coveredBytes i.addr (i.cmd s.cfg) i.payload)).setWidth 8
          else s.rx.crc
        lastTick := s.now }
    trace := s.trace ++ [.rx .frameOk] }

/-- The state in which the response with COMMAND `rc` and PAYLOAD `rp` has been started (42_control_loop.md R196). -/
def State.withResponse (rc : Byte) (rp : List Byte) (s : State) : State :=
  { s with
    tx :=
      { dir := .transmit
        phase := .turnaround
        buf := frameBytes s.cfg s.cfg.boardAddr rc rp
        len := (frameBytes s.cfg s.cfg.boardAddr rc rp).length
        t0 := s.now }
    responding := true
    trace := s.trace ++ [.dir .transmit] }

/-- The payload with the 16 values `d` in the layout of 30_encoding.md R91. -/
def valuesPayload (d : ChannelValues) : List Byte :=
  (List.finRange channelCount).flatMap fun i => [d[i].extractLsb' 0 8, d[i].extractLsb' 8 8]

/-- The bytes with one bit of byte `k` inverted (40_frame_codec.md R143). -/
def flipBit (k bit : Nat) (bytes : List Byte) : List Byte :=
  bytes.set k (bytes.getD k 0 ^^^ (1#8 <<< bit))

/-- Feed bytes to the receiver, each in a pass of its own tick, and collect the frames it returns
(40_frame_codec.md R120, R142). -/
def feed : List (Nat × Byte) → State → List Frame × State
  | [], s => ([], s)
  | (tick, b) :: q, s =>
    let r := State.rxByte b { s with now := tick }
    let rest := feed q r.2
    (r.1.toList ++ rest.1, rest.2)

/-- No gap between consecutive ticks is longer than INTERBYTE_TIMEOUT (40_frame_codec.md R142). -/
def NoLongGap (p : Params) : List Nat → Prop
  | a :: b :: q => elapsed p.tickW b a ≤ p.interbyteTimeout ∧ NoLongGap p (b :: q)
  | _ => True

/-- The receiver is ready for a frame: Idle, its buffer as long as MAX_PAYLOAD, the clock in its bounds. -/
structure ReadyForFrame (s : State) : Prop where
  idle : s.rx.phase = .idle
  buffer : s.rx.buf.length = s.cfg.maxPayload.toNat
  clock : s.clockOk = true

/-- The drain gives its bytes to the receiver, and the tick is one the port can answer. -/
structure ReadyToDrain (s : State) : Prop extends ReadyForFrame s where
  lineFree : s.tx.phase = .idle
  noResponse : s.responding = false
  tick : s.now < 2 ^ s.cfg.tickW

/-! ### The observation -/

/-- The line direction after the events, if from direction `d` they keep the rules of the line: a direction is set only to
the other one (10_state.md R42), and `write_bytes` happens only in Transmit (70_reset_and_hazards.md R265). -/
def lineFrom (d : Direction) : List Event → Option Direction
  | [] => some d
  | .dir d' :: es => if d' = d then none else lineFrom d' es
  | .tx _ :: es => if d = .transmit then lineFrom d es else none
  | .outputs _ :: es => lineFrom d es
  | .sample _ :: es => lineFrom d es
  | .rx _ :: es => lineFrom d es

/-- The line direction after a whole observation, which begins with the reset's `Dir(Receive)` (70_reset_and_hazards.md R261). -/
def lineAfter : List Event → Option Direction
  | .dir .receive :: es => lineFrom .receive es
  | _ => none

/-- The values of the last `set_outputs` call. -/
def lastOutputs (events : List Event) : Option ChannelValues :=
  (events.filterMap fun e => match e with
    | .outputs v => some v
    | _ => none).getLast?

/-- Whether the last `sample_inputs` call succeeded. -/
def lastSample (events : List Event) : Option Bool :=
  (events.filterMap fun e => match e with
    | .sample ok => some ok
    | _ => none).getLast?

/-- The registers say what the observation says: DIR is the last direction set, and the line's rules were kept
(10_state.md R30, R42); APPLIED and APPLIED_VALID are the last `set_outputs` (R37); STALE and CAD_PRIMED are the
last sampling attempt (R35, R38). -/
structure ObservationAgrees (s : State) : Prop where
  line : lineAfter s.trace = some s.tx.dir
  applied : lastOutputs s.trace = if s.ch.appliedValid then some s.ch.applied else none
  stale : s.ch.stale = decide (lastSample s.trace ≠ some true)
  primed : s.ch.cadPrimed = (lastSample s.trace).isSome

/-- A frame this board may send: its ADDRESS is BOARD_ADDR and its payload fits (30_encoding.md R101; 40_frame_codec.md R140). -/
def OwnFrame (p : Params) (bytes : List Byte) : Prop :=
  ∃ cmd payload, payload.length ≤ p.maxPayload.toNat ∧ bytes = frameBytes p p.boardAddr cmd payload

/-- Every transmission so far, and the one that waits, is a frame of this board (30_encoding.md R101; 42_control_loop.md R196, R197). -/
structure SendsOwnFrames (s : State) : Prop where
  sent : ∀ bs, Event.tx bs ∈ s.trace → OwnFrame s.cfg bs
  waiting : s.tx.phase = .turnaround → OwnFrame s.cfg (s.tx.buf.take s.tx.len)

/-- A safe outcome: the block goes on, and its invariants hold (60_exceptions.md R230; 10_state.md R40). -/
def SafeOutcome (o : Result) : Prop := ∃ t, o = .next t ∧ Wf t

end Sys2Proof.Machine
end

