-- ==== Sys2Proof/Certificates/Slice0/Obligations.lean ====
section
/-!
DEFINITION. The statements about the model, for the provers. Each docstring names the rules of spec/ it formalises.
-/

open Sys2Proof Sys2Proof.Machine

/-! ### Encoding -/

/-- Decoding the frame of a well-formed instruction gives it back, with the bytes after it
(30_encoding.md R80, R81, R88, R102). -/
def Obligations.DecodeEncodeAgree : Prop :=
  ∀ (p : Params) (i : Instr) (bytes rest : List Byte), CommandCodesDistinct p → i.WellFormed p →
    encode p i = some bytes → decode p (bytes ++ rest) = .ok (i, rest)

/-- What decodes is the frame of a well-formed instruction: each frame has one meaning, and the decoder drops no byte
(30_encoding.md R80, R84, R88). -/
def Obligations.DecodedBytesAreTheEncoding : Prop :=
  ∀ (p : Params) (i : Instr) (bytes rest : List Byte), decode p bytes = .ok (i, rest) →
    i.WellFormed p ∧ ∃ f, encode p i = some f ∧ bytes = f ++ rest

/-- `Encode` fails only where the payload is longer than MAX_PAYLOAD, and else gives 4 + n + c bytes
(40_frame_codec.md R140; 30_encoding.md R82). -/
def Obligations.EncodeFailsOnlyWhenTooLong : Prop :=
  ∀ (p : Params) (addr cmd : Byte) (payload : List Byte),
    (encodeFrame p addr cmd payload = none ↔ p.maxPayload.toNat < payload.length) ∧
    ∀ f, encodeFrame p addr cmd payload = some f →
      f.length = 4 + payload.length + p.crcProfile.bytes

/-- The encodings of 30_encoding.md R106, read and written. -/
def Obligations.DefaultFramesDecode : Prop :=
  let p := Params.example
  decode p [0xA5, 0x05, 0x01, 0x00, 0xD5] = .ok (.ping 0x05 [], []) ∧
  decode p [0xA5, 0x05, 0x02, 0x00, 0xEA] = .ok (.readInputs 0x05 [], []) ∧
  decode p [0xA5, 0x09, 0x02, 0x00, 0x10] = .ok (.readInputs 0x09 [], []) ∧
  decode p [0xA5, 0xFF, 0x01, 0x00, 0x3E] = .ok (.ping 0xFF [], []) ∧
  decode p [0xA5, 0x05, 0x03, 0x00, 0xFF] = .ok (.setOutputs 0x05 [], []) ∧
  encodeFrame p 0x05 p.cmdPing [] = some [0xA5, 0x05, 0x01, 0x00, 0xD5] ∧
  encodeFrame p 0x05 p.cmdReadInputs [] = some [0xA5, 0x05, 0x02, 0x00, 0xEA] ∧
  encodeFrame p 0x09 p.cmdReadInputs [] = some [0xA5, 0x09, 0x02, 0x00, 0x10] ∧
  encodeFrame p 0xFF p.cmdPing [] = some [0xA5, 0xFF, 0x01, 0x00, 0x3E] ∧
  encodeFrame p 0x05 p.cmdSetOutputs [] = some [0xA5, 0x05, 0x03, 0x00, 0xFF]

/-- The check values of 30_encoding.md R87. -/
def Obligations.CrcCheckValues : Prop :=
  crc8 [0x31, 0x32, 0x33, 0x34, 0x35, 0x36, 0x37, 0x38, 0x39] = 0xF4 ∧
  crc16 [0x31, 0x32, 0x33, 0x34, 0x35, 0x36, 0x37, 0x38, 0x39] = 0x29B1 ∧
  crc8 [] = 0x00 ∧ crc8 [0x00] = 0x00 ∧ crc8 [0x01] = 0x07 ∧ crc8 [0x80] = 0x89 ∧
  crc8 [0xFF] = 0xF3 ∧ crc8 [0x05, 0x01, 0x00] = 0xD5 ∧ crc16 [] = 0xFFFF ∧
  crc16 [0x05, 0x01, 0x00] = 0x145D

/-- The command map: the three known codes, and every other value reserved, RSP_ERROR among them
(41_commands.md R163; 30_encoding.md R88). -/
def Obligations.CommandByteSelectsOneRule : Prop :=
  ∀ (p : Params) (addr cmd : Byte) (payload : List Byte), CommandCodesDistinct p →
    (cmd = p.cmdPing → decodeCommand p addr cmd payload = .ping addr payload) ∧
    (cmd = p.cmdReadInputs → decodeCommand p addr cmd payload = .readInputs addr payload) ∧
    (cmd = p.cmdSetOutputs → decodeCommand p addr cmd payload = .setOutputs addr payload) ∧
    (cmd ≠ p.cmdPing ∧ cmd ≠ p.cmdReadInputs ∧ cmd ≠ p.cmdSetOutputs →
      decodeCommand p addr cmd payload = .reserved addr cmd payload) ∧
    decodeCommand p addr p.rspError payload = .reserved addr p.rspError payload

/-- Two byte sequences that differ in one byte have different CRC fields, under either profile (the argument
behind 40_frame_codec.md R143). -/
def Obligations.CrcTellsOneByteApart : Prop :=
  ∀ (p : Params) (before after : List Byte) (x y : Byte), x ≠ y →
    crcField p (before ++ x :: after) ≠ crcField p (before ++ y :: after)

/-- The 32-byte payloads are exactly the layouts of 16 values, and the model reads the layout it writes
(30_encoding.md R91, R92). -/
def Obligations.ChannelLayoutLosesNoBit : Prop :=
  (∀ d : ChannelValues, dutyValues (valuesPayload d) = d ∧ channelBytes d = valuesPayload d) ∧
  ∀ payload : List Byte, payload.length = 32 → valuesPayload (dutyValues payload) = payload

/-- The held encodings of RX_PHASE and TX_PHASE, and the encodings that are never held (10_state.md R22, R30, R31). -/
def Obligations.PhaseEncodings : Prop :=
  [RxPhase.idle, .gotAddress, .gotCommand, .gotLength, .payload, .gotCrc].map RxPhase.code
      = [0, 1, 2, 3, 4, 5] ∧
  (∀ ph : RxPhase, RxPhase.ofCode ph.code = some ph) ∧
  RxPhase.ofCode 6 = none ∧ RxPhase.ofCode 7 = none ∧
  [TxPhase.idle, .turnaround, .drain].map TxPhase.code = [0, 1, 2] ∧
  (∀ ph : TxPhase, TxPhase.ofCode ph.code = some ph) ∧ TxPhase.ofCode 3 = none ∧
  [Direction.receive, .transmit].map Direction.code = [0, 1]

/-! ### Ticks -/

/-- `elapsed` is in its range and gives back any distance below 2^TICK_W, across a wrap too (00_scope.md R13;
60_exceptions.md R243). -/
def Obligations.ElapsedMeasuresAcrossWrap : Prop :=
  ∀ w t d : Nat, t < 2 ^ w → d < 2 ^ w →
    elapsed w ((t + d) % 2 ^ w) t = d ∧ ∀ now, elapsed w now t < 2 ^ w

/-! ### Commands -/

/-- PING addressed to this board answers the five bytes of 30_encoding.md R98 and R99; with a payload it is ERR_BAD_LENGTH
(41_commands.md R167); on broadcast it does nothing. -/
def Obligations.PingAnswers : Prop :=
  ∀ (s : State) (addr : Byte) (payload : List Byte), Valid s.cfg →
    (addr = s.cfg.boardAddr → addr ≠ s.cfg.broadcastAddr → payload = [] →
      exec (.ping addr payload) s = .next (s.withResponse s.cfg.cmdPing
        [s.cfg.protocolVersion, s.cfg.fwVersion.extractLsb' 0 8, s.cfg.fwVersion.extractLsb' 8 8,
          s.cfg.boardAddr, if s.ch.stale then 0x01 else 0x00])) ∧
    (addr = s.cfg.boardAddr → addr ≠ s.cfg.broadcastAddr → payload ≠ [] →
      exec (.ping addr payload) s = .next (s.withResponse s.cfg.rspError
        [s.cfg.errBadLength, s.cfg.cmdPing])) ∧
    (addr = s.cfg.broadcastAddr → exec (.ping addr payload) s = .next s)

/-- READ_INPUTS addressed to this board answers the 16 raw values (30_encoding.md R93); with a payload it is
ERR_BAD_LENGTH (41_commands.md R172); on broadcast it does nothing. -/
def Obligations.ReadInputsAnswers : Prop :=
  ∀ (s : State) (addr : Byte) (payload : List Byte), Valid s.cfg →
    (addr = s.cfg.boardAddr → addr ≠ s.cfg.broadcastAddr → payload = [] →
      exec (.readInputs addr payload) s = .next (s.withResponse s.cfg.cmdReadInputs
        ((List.finRange channelCount).flatMap fun i =>
          [s.ch.inputs[i].raw.extractLsb' 0 8, s.ch.inputs[i].raw.extractLsb' 8 8]))) ∧
    (addr = s.cfg.boardAddr → addr ≠ s.cfg.broadcastAddr → payload ≠ [] →
      exec (.readInputs addr payload) s = .next (s.withResponse s.cfg.rspError
        [s.cfg.errBadLength, s.cfg.cmdReadInputs])) ∧
    (addr = s.cfg.broadcastAddr → exec (.readInputs addr payload) s = .next s)

/-- A SET_OUTPUTS whose payload is the layout of 16 values in range stores them all; addressed to this board it is
acknowledged with an empty payload, on broadcast it is not answered (30_encoding.md R92, R94; 41_commands.md R162, R175). -/
def Obligations.SetOutputsStoresAndAcknowledges : Prop :=
  ∀ (s : State) (addr : Byte) (d : ChannelValues), Valid s.cfg →
    (∀ i : Fin channelCount, d[i] ≤ s.cfg.maxDuty) →
    (addr = s.cfg.boardAddr → addr ≠ s.cfg.broadcastAddr →
      exec (.setOutputs addr (valuesPayload d)) s =
        .next (State.withResponse s.cfg.cmdSetOutputs [] { s with ch := { s.ch with out := d } })) ∧
    (addr = s.cfg.broadcastAddr →
      exec (.setOutputs addr (valuesPayload d)) s = .next { s with ch := { s.ch with out := d } })

/-- A SET_OUTPUTS with LENGTH ≠ 32 is ERR_BAD_LENGTH whatever its bytes hold, and one with a value above MAX_DUTY is
ERR_INVALID_VALUE; neither changes an output, and on broadcast neither is answered (41_commands.md R176, R177, R162). -/
def Obligations.SetOutputsRejects : Prop :=
  ∀ (s : State) (addr : Byte) (payload : List Byte), Valid s.cfg →
    (payload.length ≠ 32 → addr = s.cfg.boardAddr → addr ≠ s.cfg.broadcastAddr →
      exec (.setOutputs addr payload) s = .next (s.withResponse s.cfg.rspError
        [s.cfg.errBadLength, s.cfg.cmdSetOutputs])) ∧
    (payload.length = 32 → (∃ i : Fin channelCount, s.cfg.maxDuty <
        u16 (payload.getD (2 * i.val) 0) (payload.getD (2 * i.val + 1) 0)) →
      addr = s.cfg.boardAddr → addr ≠ s.cfg.broadcastAddr →
      exec (.setOutputs addr payload) s = .next (s.withResponse s.cfg.rspError
        [s.cfg.errInvalidValue, s.cfg.cmdSetOutputs])) ∧
    (payload.length ≠ 32 ∨ (∃ i : Fin channelCount, s.cfg.maxDuty <
        u16 (payload.getD (2 * i.val) 0) (payload.getD (2 * i.val + 1) 0)) →
      addr = s.cfg.broadcastAddr → exec (.setOutputs addr payload) s = .next s)

/-- A reserved command addressed to this board is ERR_UNKNOWN_COMMAND whatever its LENGTH and PAYLOAD; on broadcast it does
nothing (41_commands.md R179). -/
def Obligations.ReservedCommandAnswersUnknown : Prop :=
  ∀ (s : State) (addr cmd : Byte) (payload : List Byte), Valid s.cfg →
    (addr = s.cfg.boardAddr → addr ≠ s.cfg.broadcastAddr →
      exec (.reserved addr cmd payload) s = .next (s.withResponse s.cfg.rspError
        [s.cfg.errUnknownCommand, cmd])) ∧
    (addr = s.cfg.broadcastAddr → exec (.reserved addr cmd payload) s = .next s)

/-- A frame whose ADDRESS is neither this board's nor the broadcast address executes nothing (41_commands.md R161). -/
def Obligations.OtherBoardsCommandHasNoEffect : Prop :=
  ∀ (i : Instr) (s : State), i.addr ≠ s.cfg.boardAddr → i.addr ≠ s.cfg.broadcastAddr →
    exec i s = .next s

/-- What every command leaves unchanged: the configuration, the receiver with every byte of BUF, the input channels, STALE, APPLIED,
APPLIED_VALID, the cadence registers, the pass's own values and the environment's answers; OUT too, but for SET_OUTPUTS; the
transmitter with every byte of TXBUF, and the observation, where the frame is not addressed to this board alone
(10_state.md R34-R39, R49; 41_commands.md R183, R186). -/
def Obligations.CommandsLeaveTheRestUnchanged : Prop :=
  ∀ (i : Instr) (s t : State), exec i s = .next t →
    t.cfg = s.cfg ∧ t.rx = s.rx ∧ (∀ k : Nat, t.rx.buf[k]? = s.rx.buf[k]?) ∧
    t.ch.inputs = s.ch.inputs ∧ t.ch.stale = s.ch.stale ∧ t.ch.applied = s.ch.applied ∧
    t.ch.appliedValid = s.ch.appliedValid ∧ t.ch.lastCad = s.ch.lastCad ∧
    t.ch.cadPrimed = s.ch.cadPrimed ∧ t.now = s.now ∧ t.clockOk = s.clockOk ∧
    t.freeCount = s.freeCount ∧ t.passes = s.passes ∧ t.pending = s.pending ∧
    ((∀ addr payload, i ≠ .setOutputs addr payload) → t.ch.out = s.ch.out) ∧
    (i.addr = s.cfg.broadcastAddr ∨ i.addr ≠ s.cfg.boardAddr →
      t.tx = s.tx ∧ (∀ k : Nat, t.tx.buf[k]? = s.tx.buf[k]?) ∧ t.trace = s.trace ∧
        t.responding = s.responding)

/-- Two identical valid SET_OUTPUTS frames leave OUT as one does, and each is acknowledged (41_commands.md R182). Each runs with the
line free (42_control_loop.md R192, R196): the second once the first's acknowledgment is sent and the line is back in Receive
(R199), and so in every later state with the line free in which the configuration and OUT stand. -/
def Obligations.SetOutputsIsIdempotent : Prop :=
  ∀ (s : State) (d : ChannelValues), Valid s.cfg → s.cfg.boardAddr ≠ s.cfg.broadcastAddr →
    (∀ i : Fin channelCount, d[i] ≤ s.cfg.maxDuty) → ¬ s.Dropping → s.tx.dir = .receive →
    let ack := frameBytes s.cfg s.cfg.boardAddr s.cfg.cmdSetOutputs []
    ∃ t u, exec (.setOutputs s.cfg.boardAddr (valuesPayload d)) s = .next t ∧
      t.ch.out = d ∧ t.tx.buf = ack ∧ t.trace = s.trace ++ [.dir .transmit] ∧
      exec (.setOutputs s.cfg.boardAddr (valuesPayload d)) { t.returnToReceive with responding := false } = .next u ∧
      u.ch.out = t.ch.out ∧ u.tx.buf = ack ∧
      u.trace = s.trace ++ [.dir .transmit, .dir .receive, .dir .transmit] ∧
      ∀ v, ¬ v.Dropping → v.tx.dir = .receive → v.cfg = t.cfg → v.ch.out = t.ch.out →
        ∃ w, exec (.setOutputs s.cfg.boardAddr (valuesPayload d)) v = .next w ∧
          w.ch.out = t.ch.out ∧ w.tx.buf = ack ∧ w.trace = v.trace ++ [.dir .transmit]

/-- No latched failure: after a command that changed no output (every rejected one is such), a command addressed to this board
has the effect on the channels and gives the response it would have had without it (41_commands.md R181), in every state `w` with
the configuration and the channels the first one left: so also once the first one's response is sent and the line is free again
(42_control_loop.md R196, R199). -/
def Obligations.RejectedCommandLeavesNoTrace : Prop :=
  ∀ (i j : Instr) (s t w u v : State), exec i s = .next t → t.ch.out = s.ch.out →
    j.addr = s.cfg.boardAddr → j.addr ≠ s.cfg.broadcastAddr → Valid s.cfg →
    w.cfg = t.cfg → w.ch = t.ch →
    exec j s = .next u → exec j w = .next v → v.ch = u.ch ∧ v.tx = { u.tx with t0 := w.now }

/-- A command's answer rests on the configuration, the tick, the raw input values and STALE alone: what OUT, APPLIED, the sample
ticks, the receiver and the past hold cannot be learnt from it (41_commands.md R186). -/
def Obligations.AnswersRevealOnlyInputsAndStale : Prop :=
  ∀ (i : Instr) (s₁ s₂ t₁ t₂ : State), s₁.cfg = s₂.cfg → s₁.now = s₂.now → s₁.tx = s₂.tx →
    s₁.ch.stale = s₂.ch.stale →
    (∀ k : Fin channelCount, s₁.ch.inputs[k].raw = s₂.ch.inputs[k].raw) →
    exec i s₁ = .next t₁ → exec i s₂ = .next t₂ → t₁.tx = t₂.tx

/-! ### Errors -/

/-- The entry of a transport error: the receiver is back in Idle with RX_J clear, the event is recorded, and nothing
else changes (60_exceptions.md R231). -/
def Obligations.TransportErrorEntry : Prop :=
  ∀ (r : TransportReason) (s : State),
    (s.transportError r).rx.phase = .idle ∧ (s.transportError r).rx.j = false ∧
    s.transportError r = { s with
      rx := { s.rx with phase := .idle, j := false }, trace := s.trace ++ [.rx (.error r)] }

/-- The entry of a command error: no state changes and the answer is [code, cmd] under RSP_ERROR, sent to this board's master
and discarded on broadcast (41_commands.md R165). -/
def Obligations.CommandErrorEntry : Prop :=
  ∀ (code cmd : Byte) (s : State), Valid s.cfg →
    (s.cfg.boardAddr ≠ s.cfg.broadcastAddr →
      s.dispatch s.cfg.boardAddr (State.commandError code cmd) =
        s.withResponse s.cfg.rspError [code, cmd]) ∧
    s.dispatch s.cfg.broadcastAddr (State.commandError code cmd) = s

/-! ### The receiver -/

/-- TimeoutCheck: nothing in Idle; mid-frame it fires exactly when more than INTERBYTE_TIMEOUT ticks have passed
(40_frame_codec.md R121). -/
def Obligations.TimeoutFiresOnlyWhenExceeded : Prop :=
  ∀ s : State, s.clockOk = true →
    (s.rx.phase = .idle → s.timeoutCheck = s) ∧
    (s.rx.phase ≠ .idle → elapsed s.cfg.tickW s.now s.rx.lastTick ≤ s.cfg.interbyteTimeout →
      s.timeoutCheck = s) ∧
    (s.rx.phase ≠ .idle → s.cfg.interbyteTimeout < elapsed s.cfg.tickW s.now s.rx.lastTick →
      s.timeoutCheck = s.transportError .timeout)

/-- In Idle, START_BYTE begins a frame and any other byte changes nothing and records nothing; the ADDRESS and COMMAND bytes are
stored unchecked, START_BYTE and the broadcast address like any other (40_frame_codec.md R122, R123, R124). -/
def Obligations.HeaderBytesAreTakenUnchecked : Prop :=
  ∀ (b : Byte) (s : State),
    (s.rx.phase = .idle → b = s.cfg.startByte →
      s.rxTransition b = (none, { s with rx := { s.rx with phase := .gotAddress } })) ∧
    (s.rx.phase = .idle → b ≠ s.cfg.startByte → s.rxTransition b = (none, s)) ∧
    (s.rx.phase = .gotAddress →
      s.rxTransition b = (none, { s with rx := { s.rx with addr := b, phase := .gotCommand } })) ∧
    (s.rx.phase = .gotCommand →
      s.rxTransition b = (none, { s with rx := { s.rx with cmd := b, phase := .gotLength } }))

/-- The LENGTH byte: above MAX_PAYLOAD it is ERR_OVERSIZE at once; 0 goes straight to GotCRC; else the payload follows
(40_frame_codec.md R125). -/
def Obligations.LengthByteIsBounded : Prop :=
  ∀ (b : Byte) (s : State), s.rx.phase = .gotLength →
    (s.cfg.maxPayload < b → s.rxTransition b = (none, s.transportError .oversize)) ∧
    (b ≤ s.cfg.maxPayload → b = 0 → s.rxTransition b =
      (none, { s with rx := { s.rx with len := 0, k := 0, j := false, phase := .gotCrc } })) ∧
    (b ≤ s.cfg.maxPayload → b ≠ 0 → s.rxTransition b =
      (none, { s with rx := { s.rx with len := b, k := 0, j := false, phase := .payload } }))

/-- A payload byte goes to BUF[RX_K] and to no other place of BUF; RX_K counts it; after the last one the CRC follows; no
event is recorded (40_frame_codec.md R126; 10_state.md R27). -/
def Obligations.PayloadByteIsStored : Prop :=
  ∀ (b : Byte) (s : State), s.rx.phase = .payload → s.rx.k < s.rx.len →
    s.rx.len ≤ s.cfg.maxPayload → s.rx.buf.length = s.cfg.maxPayload.toNat →
    ∃ t, s.rxTransition b = (none, t) ∧ t.rx.buf[s.rx.k.toNat]? = some b ∧
      (∀ k : Nat, k ≠ s.rx.k.toNat → t.rx.buf[k]? = s.rx.buf[k]?) ∧
      t.rx.k.toNat = s.rx.k.toNat + 1 ∧
      (t.rx.k = s.rx.len → t.rx.phase = .gotCrc ∧ t.rx.j = false) ∧
      (t.rx.k ≠ s.rx.len → t.rx.phase = .payload ∧ t.rx.j = s.rx.j) ∧
      t.rx.addr = s.rx.addr ∧ t.rx.cmd = s.rx.cmd ∧ t.rx.len = s.rx.len ∧ t.rx.crc = s.rx.crc ∧
      t.rx.lastTick = s.rx.lastTick ∧ t = { s with rx := t.rx }

/-- The CRC bytes: under CRC16 the first is held; the last one completes the frame exactly when the received CRC equals
the computed one, and is ERR_CRC otherwise (40_frame_codec.md R127, R128, R129). -/
def Obligations.CrcByteCompletesOrRejects : Prop :=
  ∀ (b : Byte) (s : State), s.rx.phase = .gotCrc →
    (s.cfg.crcProfile = .crc16 → s.rx.j = false →
      s.rxTransition b = (none, { s with rx := { s.rx with crc := b, j := true } })) ∧
    (∀ received : List Byte,
      (s.cfg.crcProfile = .crc8 ∧ received = [b] ∨
        s.cfg.crcProfile = .crc16 ∧ s.rx.j = true ∧ received = [s.rx.crc, b]) →
      (received = crcField s.cfg ([s.rx.addr, s.rx.cmd, s.rx.len] ++ s.rx.buf.take s.rx.len.toNat) →
        s.rxTransition b =
          (some { addr := s.rx.addr, cmd := s.rx.cmd, payload := s.rx.buf.take s.rx.len.toNat },
            { s with rx := { s.rx with phase := .idle, j := false }
                     trace := s.trace ++ [.rx .frameOk] })) ∧
      (received ≠ crcField s.cfg ([s.rx.addr, s.rx.cmd, s.rx.len] ++ s.rx.buf.take s.rx.len.toNat) →
        s.rxTransition b = (none, s.transportError .crc)))

/-- Mid-frame, a byte that brings the receiver back to Idle records FRAME_OK or a transport error: there is no silent way back
(40_frame_codec.md R130, R145). -/
def Obligations.OnlyEventsEndAFrame : Prop :=
  ∀ (b : Byte) (s : State), s.rx.phase ≠ .idle → (s.rxByte b).2.rx.phase = .idle →
    ∃ before e after, (s.rxByte b).2.trace = s.trace ++ before ++ .rx e :: after ∧
      (e = .frameOk ∨ ∃ r, e = .error r)

/-- Feeding an encoded frame to a receiver in Idle, with no gap above INTERBYTE_TIMEOUT, returns the frame and records FRAME_OK at
the last byte and no event before it (40_frame_codec.md R142). -/
def Obligations.ReceiverRoundTrip : Prop :=
  ∀ (s : State) (addr cmd : Byte) (payload f : List Byte) (ticks : List Nat), ReadyForFrame s →
    encodeFrame s.cfg addr cmd payload = some f → ticks.length = f.length →
    NoLongGap s.cfg ticks →
    (feed (ticks.zip f).dropLast s).1 = [] ∧ (feed (ticks.zip f).dropLast s).2.trace = s.trace ∧
    (feed (ticks.zip f) s).1 = [{ addr := addr, cmd := cmd, payload := payload }] ∧
    (feed (ticks.zip f) s).2.trace = s.trace ++ [.rx .frameOk] ∧
    (feed (ticks.zip f) s).2.rx.phase = .idle

/-- Flipping any single bit of the ADDRESS, COMMAND or a PAYLOAD byte of an encoded frame makes the receiver record ERR_CRC and return no
frame (40_frame_codec.md R143, its first sentence). -/
def Obligations.SingleBitFlipIsRejected : Prop :=
  ∀ (s : State) (addr cmd : Byte) (payload f : List Byte) (ticks : List Nat) (k bit : Nat),
    ReadyForFrame s → encodeFrame s.cfg addr cmd payload = some f → ticks.length = f.length →
    NoLongGap s.cfg ticks → (k = 1 ∨ k = 2 ∨ 4 ≤ k ∧ k < 4 + payload.length) → bit < 8 →
    (feed (ticks.zip (flipBit k bit f)) s).1 = [] ∧
    (feed (ticks.zip (flipBit k bit f)) s).2.trace = s.trace ++ [.rx (.error .crc)] ∧
    (feed (ticks.zip (flipBit k bit f)) s).2.rx.phase = .idle

/-! ### The drain -/

/-- Bytes without a START_BYTE are skipped in Idle and record nothing (40_frame_codec.md R122; 70_reset_and_hazards.md R262). -/
def Obligations.NoiseIsSkipped : Prop :=
  ∀ (bytes : List Byte) (s : State), ReadyToDrain s → s.cfg.startByte ∉ bytes → bytes ≠ [] →
    drain bytes s = .next { s with rx := { s.rx with lastTick := s.now } }

/-- While a response is pending or in flight, and after one was produced in this drain, every byte is discarded with one
Rx(DROPPED) and nothing else changes (42_control_loop.md R193, R195). -/
def Obligations.HeldLineDropsBytes : Prop :=
  ∀ (bytes : List Byte) (s : State), (s.tx.phase ≠ .idle ∨ s.responding = true) →
    drain bytes s =
      .next { s with trace := s.trace ++ List.replicate bytes.length (.rx .dropped) }

/-- A frame at the head of the drain is executed before the next byte is given to the receiver (40_frame_codec.md R131;
42_control_loop.md R194). -/
def Obligations.DrainRunsFrameBeforeNextByte : Prop :=
  ∀ (bytes rest : List Byte) (i : Instr) (s : State), ReadyToDrain s →
    decode s.cfg bytes = .ok (i, rest) →
    drain bytes s = andThen (exec i (s.frameHeld i)) (drain rest)

/-- A pass whose bytes are one frame runs that frame's command, then the transmit step, the sampling, the PWM refresh and the sweep,
in this order (41_commands.md R160; 42_control_loop.md R190, R204; 60_exceptions.md R238). -/
def Obligations.StepRunsDecodedFrame : Prop :=
  ∀ (s : State) (i : Instr), Valid s.cfg → Wf s → s.rx.phase = .idle → s.tx.phase = .idle →
    s.nextInput.clockOk = true → decode s.cfg s.nextInput.rx = .ok (i, []) →
    step s = andThen (exec i (s.beginPass.frameHeld i)) fun t =>
      andThen (transmitStep s.nextInput.txComplete t) fun u =>
        .next (pwmRefresh (sampleStep s.nextInput.sample u)).timeoutCheck

/-- A valid frame for another board records FRAME_OK, and nothing else comes of it (60_exceptions.md R233). -/
def Obligations.AddressMismatchRecordsFrameOkOnly : Prop :=
  ∀ (bytes : List Byte) (i : Instr) (s : State), ReadyToDrain s →
    decode s.cfg bytes = .ok (i, []) → i.addr ≠ s.cfg.boardAddr → i.addr ≠ s.cfg.broadcastAddr →
    ∃ t, drain bytes s = .next t ∧ t.trace = s.trace ++ [.rx .frameOk] ∧ t.tx = s.tx ∧ t.ch = s.ch ∧
      t.rx.phase = .idle

/-- A frame with a bad CRC records ERR_CRC only, whatever its address, and changes no channel, DIR or transmitter register
(40_frame_codec.md R129; 41_commands.md R183). -/
def Obligations.BadCrcFrameIsDiscarded : Prop :=
  ∀ (addr cmd len : Byte) (body : List Byte) (s : State), ReadyToDrain s →
    body.length = len.toNat + s.cfg.crcProfile.bytes →
    decode s.cfg (s.cfg.startByte :: addr :: cmd :: len :: body) = .error .badCrc →
    ∃ t, drain (s.cfg.startByte :: addr :: cmd :: len :: body) s = .next t ∧
      t.trace = s.trace ++ [.rx (.error .crc)] ∧ t.tx = s.tx ∧ t.ch = s.ch ∧ t.rx.phase = .idle

/-- After an oversized LENGTH the bytes that follow are scanned in Idle (40_frame_codec.md R125). -/
def Obligations.OversizeResynchronises : Prop :=
  ∀ (addr cmd len : Byte) (rest : List Byte) (s : State), ReadyToDrain s → s.cfg.maxPayload < len →
    drain (s.cfg.startByte :: addr :: cmd :: len :: rest) s =
      drain rest { s with
        rx := { s.rx with addr := addr, cmd := cmd, phase := .idle, j := false, lastTick := s.now }
        trace := s.trace ++ [.rx (.error .oversize)] }

/-- A partial frame, a silence above INTERBYTE_TIMEOUT, then a valid frame: the old frame is ERR_TIMEOUT and the new one runs
(40_frame_codec.md R144). The three clauses: at the first byte of the new frame (R121); in the sweep that ends every pass
(42_control_loop.md R204), after which no receiver is mid-frame with more than INTERBYTE_TIMEOUT elapsed; and in the sweep of a pass
without bytes, where ERR_TIMEOUT is that pass's last event (60_exceptions.md R238) and its only receiver event, and a valid frame in
the next pass then records FRAME_OK first. -/
def Obligations.TimeoutRecoversForTheNextFrame : Prop :=
  (∀ (bytes rest : List Byte) (i : Instr) (s : State), s.rx.phase ≠ .idle → s.clockOk = true →
    s.rx.buf.length = s.cfg.maxPayload.toNat → s.tx.phase = .idle → s.responding = false →
    s.now < 2 ^ s.cfg.tickW →
    s.cfg.interbyteTimeout < elapsed s.cfg.tickW s.now s.rx.lastTick →
    decode s.cfg bytes = .ok (i, rest) →
    drain bytes s = andThen (exec i ((s.transportError .timeout).frameHeld i)) (drain rest)) ∧
  (∀ s t : State, step s = .next t → s.nextInput.clockOk = true →
    t.rx.phase = .idle ∨ elapsed t.cfg.tickW t.now t.rx.lastTick ≤ t.cfg.interbyteTimeout) ∧
  ∀ s : State, Valid s.cfg → Wf s → s.rx.phase ≠ .idle → s.tx.phase = .idle →
    s.nextInput.clockOk = true → s.nextInput.rx = [] →
    s.cfg.interbyteTimeout < elapsed s.cfg.tickW (s.nextInput.now % 2 ^ s.cfg.tickW) s.rx.lastTick →
    ∃ t events, step s = .next t ∧ t.trace = s.trace ++ events ++ [.rx (.error .timeout)] ∧
      (∀ e, .rx e ∉ events) ∧ t.rx = { s.rx with phase := .idle, j := false } ∧ t.tx = s.tx ∧
      ∀ i, t.nextInput.clockOk = true → decode s.cfg t.nextInput.rx = .ok (i, []) →
        ∃ u later, step t = .next u ∧ u.trace = t.trace ++ .rx .frameOk :: later

/-! ### The rest of the pass -/

/-- The transmit step: the response is written once the turnaround time has passed, the end of transmission is asked for once, and
the line returns to Receive only when it is reported (42_control_loop.md R197, R198, R199). A write with the transceiver in Receive,
which 10_state.md R40 (b) rules out, is a fault of the block: the model's choice, which 70_reset_and_hazards.md R265 allows (log
entry 13). -/
def Obligations.TransmitStepRule : Prop :=
  ∀ (complete : Bool) (s : State), s.clockOk = true →
    (s.tx.phase = .idle → transmitStep complete s = .next s) ∧
    (s.tx.phase = .turnaround → elapsed s.cfg.tickW s.now s.tx.t0 < s.cfg.turnaroundTicks →
      transmitStep complete s = .next s) ∧
    (s.tx.phase = .turnaround → s.cfg.turnaroundTicks ≤ elapsed s.cfg.tickW s.now s.tx.t0 →
      s.tx.dir = .transmit → complete = false →
      transmitStep complete s = .next { s with
        tx := { s.tx with phase := .drain }
        trace := s.trace ++ [.tx (s.tx.buf.take s.tx.len)] }) ∧
    (s.tx.phase = .turnaround → s.cfg.turnaroundTicks ≤ elapsed s.cfg.tickW s.now s.tx.t0 →
      s.tx.dir = .transmit → complete = true →
      transmitStep complete s = .next { s with
        tx := { s.tx with dir := .receive, phase := .idle, len := 0 }
        trace := s.trace ++ [.tx (s.tx.buf.take s.tx.len), .dir .receive] }) ∧
    (s.tx.phase = .turnaround → s.cfg.turnaroundTicks ≤ elapsed s.cfg.tickW s.now s.tx.t0 →
      s.tx.dir = .receive → transmitStep complete s = .fault .writeInReceive) ∧
    (s.tx.phase = .drain → complete = false → transmitStep complete s = .next s) ∧
    (s.tx.phase = .drain → complete = true → transmitStep complete s = .next { s with
        tx := { s.tx with dir := .receive, phase := .idle, len := 0 }
        trace := s.trace ++ [.dir .receive] })

/-- The sampling step: it samples when CAD_PRIMED is 0 or SAMPLE_PERIOD ticks have passed; a success replaces all 16 channels and clears
STALE, a failure sets STALE and keeps them (42_control_loop.md R200, R201, R202). -/
def Obligations.SampleStepRule : Prop :=
  ∀ (result : Option ChannelValues) (s : State), s.clockOk = true →
    let due := s.ch.cadPrimed = false ∨ s.cfg.samplePeriod ≤ elapsed s.cfg.tickW s.now s.ch.lastCad
    (¬ due → sampleStep result s = s) ∧
    (due → result = none → sampleStep result s = { s with
      ch := { s.ch with lastCad := s.now, cadPrimed := true, stale := true }
      trace := s.trace ++ [.sample false] }) ∧
    (∀ v, due → result = some v → sampleStep result s = { s with
      ch := { s.ch with
        lastCad := s.now
        cadPrimed := true
        stale := false
        inputs := Vector.ofFn fun i => { raw := v[i], tick := s.now } }
      trace := s.trace ++ [.sample true] })

/-- The PWM refresh: it pushes OUT when nothing was applied since reset or a channel differs, and APPLIED then holds it
(42_control_loop.md R203). -/
def Obligations.PwmRefreshRule : Prop :=
  ∀ s : State,
    (s.ch.appliedValid = true → s.ch.out = s.ch.applied → pwmRefresh s = s) ∧
    (s.ch.appliedValid = false ∨ s.ch.out ≠ s.ch.applied → pwmRefresh s = { s with
      ch := { s.ch with applied := s.ch.out, appliedValid := true }
      trace := s.trace ++ [.outputs s.ch.out] })

/-! ### The pass -/

/-- Where the spec's premises hold, every pass goes on: no fault, no refusal, no blocking (60_exceptions.md R230;
42_control_loop.md R205). -/
def Obligations.EveryPassGoesOn : Prop :=
  ∀ s : State, Valid s.cfg → Wf s → ∃ t, step s = .next t

/-- Every pass keeps the invariants of 10_state.md R40 and the widths of the registers, from every state. -/
def Obligations.PassKeepsInvariants : Prop :=
  ∀ s t : State, step s = .next t → Wf t

/-- The reset state meets the invariants, agrees with its observation and has sent nothing, under every configuration the spec gives
a meaning (10_state.md R40, R47; 70_reset_and_hazards.md R261). -/
def Obligations.ResetMeetsInvariants : Prop :=
  ∀ p : Params, Valid p → Wf (State.resetWith p) ∧ ObservationAgrees (State.resetWith p) ∧
    SendsOwnFrames (State.resetWith p)

/-- Every pass keeps the agreement of the registers with the observation: the half-duplex discipline of the line, and what DIR,
APPLIED, APPLIED_VALID, STALE and CAD_PRIMED say (10_state.md R30, R35, R37, R38, R42; 42_control_loop.md R206). -/
def Obligations.PassKeepsObservation : Prop :=
  ∀ s t : State, ObservationAgrees s → step s = .next t → ObservationAgrees t

/-- Every pass sends only frames of this board (30_encoding.md R101; 42_control_loop.md R196, R197). -/
def Obligations.PassSendsOwnFrames : Prop :=
  ∀ s t : State, SendsOwnFrames s → step s = .next t → SendsOwnFrames t

/-- No frame and no port writes the configuration (10_state.md R21). -/
def Obligations.ConfigurationIsNeverWritten : Prop :=
  ∀ s t : State, step s = .next t → t.cfg = s.cfg

/-- A pass only appends to the observation, and one that completes no frame changes no OUT, starts no response
and executes nothing (41_commands.md R183; 10_state.md R36). -/
def Obligations.OnlyFramesChangeOutputsOrAnswer : Prop :=
  ∀ s t : State, step s = .next t →
    ∃ events, t.trace = s.trace ++ events ∧
      (.rx .frameOk ∉ events → t.ch.out = s.ch.out ∧ .dir .transmit ∉ events)

/-- A pass starts at most one response, and none while one is pending or in flight (42_control_loop.md R193, R195;
20_memory.md R72). -/
def Obligations.AtMostOneResponseAPass : Prop :=
  ∀ s t : State, step s = .next t →
    ∃ events, t.trace = s.trace ++ events ∧ events.count (.dir .transmit) ≤ 1 ∧
      (s.tx.phase ≠ .idle → events.count (.dir .transmit) = 0)

/-- While a response is pending or in flight, a pass changes no receiver register, no byte of TXBUF and no output
(42_control_loop.md R193, R208). -/
def Obligations.ResponseInFlightIsUndisturbed : Prop :=
  ∀ s t : State, step s = .next t → s.tx.phase ≠ .idle →
    t.rx = s.rx ∧ t.tx.buf = s.tx.buf ∧ (∀ k : Nat, t.tx.buf[k]? = s.tx.buf[k]?) ∧
      t.ch.out = s.ch.out

/-- The line is not released before `transmit_complete()` is true (42_control_loop.md R198; 70_reset_and_hazards.md R266). -/
def Obligations.NoEarlyRelease : Prop :=
  ∀ s t : State, step s = .next t → s.tx.phase ≠ .idle → s.nextInput.txComplete = false →
    t.tx.dir = .transmit ∧ t.tx.phase ≠ .idle

/-- Once the turnaround time has passed and the environment reports the end of the transmission, one pass sends the response and
returns the line to Receive (42_control_loop.md R197, R199, R207). -/
def Obligations.DueResponseIsSentInOnePass : Prop :=
  ∀ s : State, Valid s.cfg → Wf s → s.tx.phase = .turnaround → s.nextInput.clockOk = true →
    s.nextInput.txComplete = true →
    s.cfg.turnaroundTicks ≤ elapsed s.cfg.tickW (s.nextInput.now % 2 ^ s.cfg.tickW) s.tx.t0 →
    ∃ t events, step s = .next t ∧ t.tx.dir = .receive ∧ t.tx.phase = .idle ∧
      t.trace = s.trace ++ events ∧ .tx (s.tx.buf.take s.tx.len) ∈ events

/-- After every pass the PWM holds OUT, so a successful SET_OUTPUTS reaches it in its own pass (42_control_loop.md R203;
20_memory.md R74). -/
def Obligations.EveryPassAppliesOutputs : Prop :=
  ∀ s t : State, step s = .next t → t.ch.applied = t.ch.out ∧ t.ch.appliedValid = true

/-- The input channels change all 16 together, to one sample of this pass, or not at all (20_memory.md R66;
42_control_loop.md R201). -/
def Obligations.InputsChangeAsOneSample : Prop :=
  ∀ s t : State, step s = .next t →
    t.ch.inputs = s.ch.inputs ∨
      ∃ v, s.nextInput.sample = some v ∧
        ∀ i : Fin channelCount, t.ch.inputs[i].raw = v[i] ∧ t.ch.inputs[i].tick = t.now

/-- Sampling is independent of bus traffic: whatever the receiver and the transmitter hold and whatever bytes arrive, a due sample is
taken, and one that is not due is not (42_control_loop.md R200). -/
def Obligations.SamplingIgnoresBusTraffic : Prop :=
  ∀ s t : State, step s = .next t → s.nextInput.clockOk = true →
    (s.ch.cadPrimed = false ∨
        s.cfg.samplePeriod ≤ elapsed s.cfg.tickW (s.nextInput.now % 2 ^ s.cfg.tickW) s.ch.lastCad →
      t.ch.lastCad = t.now ∧ t.ch.cadPrimed = true ∧ t.ch.stale = s.nextInput.sample.isNone) ∧
    (s.ch.cadPrimed = true →
        elapsed s.cfg.tickW (s.nextInput.now % 2 ^ s.cfg.tickW) s.ch.lastCad < s.cfg.samplePeriod →
      t.ch.inputs = s.ch.inputs ∧ t.ch.lastCad = s.ch.lastCad ∧ t.ch.stale = s.ch.stale)

/-- A board whose address is the broadcast address never starts a response (41_commands.md R162). That the model gives such a
configuration a meaning is its own choice, for one case (log entry 8). -/
def Obligations.UnassignedBoardNeverAnswers : Prop :=
  ∀ s t : State, step s = .next t → s.cfg.boardAddr = s.cfg.broadcastAddr → s.tx.phase = .idle →
    t.tx = s.tx ∧ ∃ events, t.trace = s.trace ++ events ∧
      (∀ d, .dir d ∉ events) ∧ ∀ bs, .tx bs ∉ events

/-- Where a premise of the spec fails, the pass is refused by name: a configuration outside 70_reset_and_hazards.md R263, or a state
outside 10_state.md R40. The model's choice of how to stop, by 93_implementation_defined.md U2 and U3; what counts as
outside is said in log entries 8 and 9. -/
def Obligations.NoMeaningOutsidePremises : Prop :=
  ∀ s : State, (¬ Valid s.cfg → step s = .refused .configurationOutsidePremises) ∧
    (Valid s.cfg → ¬ Wf s → step s = .refused .stateOutsideInvariants)

/-! ### Reset -/

/-- The reset value of every register (10_state.md R47), under any configuration. -/
def Obligations.ResetValues : Prop :=
  ∀ p : Params, let s := State.resetWith p
    s.cfg = p ∧ s.rx.phase = .idle ∧ s.rx.addr = 0 ∧ s.rx.cmd = 0 ∧ s.rx.len = 0 ∧ s.rx.k = 0 ∧
    s.rx.j = false ∧ s.rx.crc = 0 ∧
    (∀ k : Nat, k < p.maxPayload.toNat → s.rx.buf[k]? = some 0) ∧ s.rx.lastTick = 0 ∧
    s.tx.dir = .receive ∧ s.tx.phase = .idle ∧ s.tx.buf = [] ∧ s.tx.len = 0 ∧ s.tx.t0 = 0 ∧
    (∀ i : Fin channelCount, s.ch.inputs[i].raw = 0 ∧ s.ch.inputs[i].tick = 0 ∧ s.ch.out[i] = 0 ∧
      s.ch.applied[i] = 0) ∧
    s.ch.stale = true ∧ s.ch.appliedValid = false ∧ s.ch.lastCad = 0 ∧ s.ch.cadPrimed = false

/-- A reset of a running block latches the configuration, sets every register as R47 does, issues `set_direction(Receive)` once and
leaves what the environment holds (70_reset_and_hazards.md R260, R261, R262; what the observation holds is DEDUCED, log entry 16). -/
def Obligations.ExternalResetSetsRegisters : Prop :=
  ∀ (p : Params) (s : State),
    (s.externalReset p).cfg = p ∧ (s.externalReset p).rx = (State.resetWith p).rx ∧
    (s.externalReset p).tx = (State.resetWith p).tx ∧ (s.externalReset p).ch = (State.resetWith p).ch ∧
    (s.externalReset p).nextInput = s.nextInput ∧ (s.externalReset p).trace = s.trace ++ [.dir .receive]

/-- The first pass after reset samples the inputs and applies OUT, all zero, where no frame arrives in it
(70_reset_and_hazards.md R261). -/
def Obligations.FirstPassSamplesAndApplies : Prop :=
  ∀ (p : Params) (inp : PassInput), Valid p → inp.rx = [] →
    ∃ t, step { State.resetWith p with pending := [inp] } = .next t ∧
      t.trace = [.dir .receive, .sample inp.sample.isSome,
        .outputs (Vector.replicate channelCount 0)] ∧
      t.ch.stale = inp.sample.isNone ∧ t.ch.appliedValid = true
end

