-- ==== Sys2Proof/Laws/State.lean ====
section
/-!
SUPPORT. One lemma per field per plain update of the state, each true by rfl, so that no later proof unfolds a record update.
-/

namespace Sys2Proof.Machine

/-! ### record -/

@[simp] theorem State.record_cfg (e : Event) (s : State) :
    (s.record e).cfg = s.cfg := rfl

@[simp] theorem State.record_rx (e : Event) (s : State) :
    (s.record e).rx = s.rx := rfl

@[simp] theorem State.record_tx (e : Event) (s : State) :
    (s.record e).tx = s.tx := rfl

@[simp] theorem State.record_ch (e : Event) (s : State) :
    (s.record e).ch = s.ch := rfl

@[simp] theorem State.record_now (e : Event) (s : State) :
    (s.record e).now = s.now := rfl

@[simp] theorem State.record_clockOk (e : Event) (s : State) :
    (s.record e).clockOk = s.clockOk := rfl

@[simp] theorem State.record_responding (e : Event) (s : State) :
    (s.record e).responding = s.responding := rfl

@[simp] theorem State.record_freeCount (e : Event) (s : State) :
    (s.record e).freeCount = s.freeCount := rfl

@[simp] theorem State.record_passes (e : Event) (s : State) :
    (s.record e).passes = s.passes := rfl

@[simp] theorem State.record_pending (e : Event) (s : State) :
    (s.record e).pending = s.pending := rfl

@[simp] theorem State.record_trace (e : Event) (s : State) :
    (s.record e).trace = s.trace ++ [e] := rfl

/-! ### setDirection -/

@[simp] theorem State.setDirection_cfg (d : Direction) (s : State) :
    (s.setDirection d).cfg = s.cfg := rfl

@[simp] theorem State.setDirection_rx (d : Direction) (s : State) :
    (s.setDirection d).rx = s.rx := rfl

@[simp] theorem State.setDirection_tx (d : Direction) (s : State) :
    (s.setDirection d).tx = { s.tx with dir := d } := rfl

@[simp] theorem State.setDirection_ch (d : Direction) (s : State) :
    (s.setDirection d).ch = s.ch := rfl

@[simp] theorem State.setDirection_now (d : Direction) (s : State) :
    (s.setDirection d).now = s.now := rfl

@[simp] theorem State.setDirection_clockOk (d : Direction) (s : State) :
    (s.setDirection d).clockOk = s.clockOk := rfl

@[simp] theorem State.setDirection_responding (d : Direction) (s : State) :
    (s.setDirection d).responding = s.responding := rfl

@[simp] theorem State.setDirection_freeCount (d : Direction) (s : State) :
    (s.setDirection d).freeCount = s.freeCount := rfl

@[simp] theorem State.setDirection_passes (d : Direction) (s : State) :
    (s.setDirection d).passes = s.passes := rfl

@[simp] theorem State.setDirection_pending (d : Direction) (s : State) :
    (s.setDirection d).pending = s.pending := rfl

@[simp] theorem State.setDirection_trace (d : Direction) (s : State) :
    (s.setDirection d).trace = s.trace ++ [.dir d] := rfl

/-! ### pushOutputs -/

@[simp] theorem State.pushOutputs_cfg (v : ChannelValues) (s : State) :
    (s.pushOutputs v).cfg = s.cfg := rfl

@[simp] theorem State.pushOutputs_rx (v : ChannelValues) (s : State) :
    (s.pushOutputs v).rx = s.rx := rfl

@[simp] theorem State.pushOutputs_tx (v : ChannelValues) (s : State) :
    (s.pushOutputs v).tx = s.tx := rfl

@[simp] theorem State.pushOutputs_ch (v : ChannelValues) (s : State) :
    (s.pushOutputs v).ch = s.ch := rfl

@[simp] theorem State.pushOutputs_now (v : ChannelValues) (s : State) :
    (s.pushOutputs v).now = s.now := rfl

@[simp] theorem State.pushOutputs_clockOk (v : ChannelValues) (s : State) :
    (s.pushOutputs v).clockOk = s.clockOk := rfl

@[simp] theorem State.pushOutputs_responding (v : ChannelValues) (s : State) :
    (s.pushOutputs v).responding = s.responding := rfl

@[simp] theorem State.pushOutputs_freeCount (v : ChannelValues) (s : State) :
    (s.pushOutputs v).freeCount = s.freeCount := rfl

@[simp] theorem State.pushOutputs_passes (v : ChannelValues) (s : State) :
    (s.pushOutputs v).passes = s.passes := rfl

@[simp] theorem State.pushOutputs_pending (v : ChannelValues) (s : State) :
    (s.pushOutputs v).pending = s.pending := rfl

@[simp] theorem State.pushOutputs_trace (v : ChannelValues) (s : State) :
    (s.pushOutputs v).trace = s.trace ++ [.outputs v] := rfl

/-! ### transportError -/

@[simp] theorem State.transportError_cfg (r : TransportReason) (s : State) :
    (s.transportError r).cfg = s.cfg := rfl

@[simp] theorem State.transportError_rx (r : TransportReason) (s : State) :
    (s.transportError r).rx = { s.rx with phase := .idle, j := false } := rfl

@[simp] theorem State.transportError_tx (r : TransportReason) (s : State) :
    (s.transportError r).tx = s.tx := rfl

@[simp] theorem State.transportError_ch (r : TransportReason) (s : State) :
    (s.transportError r).ch = s.ch := rfl

@[simp] theorem State.transportError_now (r : TransportReason) (s : State) :
    (s.transportError r).now = s.now := rfl

@[simp] theorem State.transportError_clockOk (r : TransportReason) (s : State) :
    (s.transportError r).clockOk = s.clockOk := rfl

@[simp] theorem State.transportError_responding (r : TransportReason) (s : State) :
    (s.transportError r).responding = s.responding := rfl

@[simp] theorem State.transportError_freeCount (r : TransportReason) (s : State) :
    (s.transportError r).freeCount = s.freeCount := rfl

@[simp] theorem State.transportError_passes (r : TransportReason) (s : State) :
    (s.transportError r).passes = s.passes := rfl

@[simp] theorem State.transportError_pending (r : TransportReason) (s : State) :
    (s.transportError r).pending = s.pending := rfl

@[simp] theorem State.transportError_trace (r : TransportReason) (s : State) :
    (s.transportError r).trace = s.trace ++ [.rx (.error r)] := rfl

/-! ### loadTx -/

@[simp] theorem State.loadTx_cfg (f : List Byte) (s : State) :
    (s.loadTx f).cfg = s.cfg := rfl

@[simp] theorem State.loadTx_rx (f : List Byte) (s : State) :
    (s.loadTx f).rx = s.rx := rfl

@[simp] theorem State.loadTx_tx (f : List Byte) (s : State) :
    (s.loadTx f).tx = { s.tx with phase := .turnaround, buf := f, len := f.length, t0 := s.now } := rfl

@[simp] theorem State.loadTx_ch (f : List Byte) (s : State) :
    (s.loadTx f).ch = s.ch := rfl

@[simp] theorem State.loadTx_now (f : List Byte) (s : State) :
    (s.loadTx f).now = s.now := rfl

@[simp] theorem State.loadTx_clockOk (f : List Byte) (s : State) :
    (s.loadTx f).clockOk = s.clockOk := rfl

@[simp] theorem State.loadTx_responding (f : List Byte) (s : State) :
    (s.loadTx f).responding = s.responding := rfl

@[simp] theorem State.loadTx_freeCount (f : List Byte) (s : State) :
    (s.loadTx f).freeCount = s.freeCount := rfl

@[simp] theorem State.loadTx_passes (f : List Byte) (s : State) :
    (s.loadTx f).passes = s.passes := rfl

@[simp] theorem State.loadTx_pending (f : List Byte) (s : State) :
    (s.loadTx f).pending = s.pending := rfl

@[simp] theorem State.loadTx_trace (f : List Byte) (s : State) :
    (s.loadTx f).trace = s.trace := rfl

/-! ### setStale -/

@[simp] theorem State.setStale_cfg (b : Bool) (s : State) :
    (s.setStale b).cfg = s.cfg := rfl

@[simp] theorem State.setStale_rx (b : Bool) (s : State) :
    (s.setStale b).rx = s.rx := rfl

@[simp] theorem State.setStale_tx (b : Bool) (s : State) :
    (s.setStale b).tx = s.tx := rfl

@[simp] theorem State.setStale_ch (b : Bool) (s : State) :
    (s.setStale b).ch = { s.ch with stale := b } := rfl

@[simp] theorem State.setStale_now (b : Bool) (s : State) :
    (s.setStale b).now = s.now := rfl

@[simp] theorem State.setStale_clockOk (b : Bool) (s : State) :
    (s.setStale b).clockOk = s.clockOk := rfl

@[simp] theorem State.setStale_responding (b : Bool) (s : State) :
    (s.setStale b).responding = s.responding := rfl

@[simp] theorem State.setStale_freeCount (b : Bool) (s : State) :
    (s.setStale b).freeCount = s.freeCount := rfl

@[simp] theorem State.setStale_passes (b : Bool) (s : State) :
    (s.setStale b).passes = s.passes := rfl

@[simp] theorem State.setStale_pending (b : Bool) (s : State) :
    (s.setStale b).pending = s.pending := rfl

@[simp] theorem State.setStale_trace (b : Bool) (s : State) :
    (s.setStale b).trace = s.trace := rfl

/-! ### storeOutputs -/

@[simp] theorem State.storeOutputs_cfg (d : ChannelValues) (s : State) :
    (s.storeOutputs d).cfg = s.cfg := rfl

@[simp] theorem State.storeOutputs_rx (d : ChannelValues) (s : State) :
    (s.storeOutputs d).rx = s.rx := rfl

@[simp] theorem State.storeOutputs_tx (d : ChannelValues) (s : State) :
    (s.storeOutputs d).tx = s.tx := rfl

@[simp] theorem State.storeOutputs_ch (d : ChannelValues) (s : State) :
    (s.storeOutputs d).ch = { s.ch with out := d } := rfl

@[simp] theorem State.storeOutputs_now (d : ChannelValues) (s : State) :
    (s.storeOutputs d).now = s.now := rfl

@[simp] theorem State.storeOutputs_clockOk (d : ChannelValues) (s : State) :
    (s.storeOutputs d).clockOk = s.clockOk := rfl

@[simp] theorem State.storeOutputs_responding (d : ChannelValues) (s : State) :
    (s.storeOutputs d).responding = s.responding := rfl

@[simp] theorem State.storeOutputs_freeCount (d : ChannelValues) (s : State) :
    (s.storeOutputs d).freeCount = s.freeCount := rfl

@[simp] theorem State.storeOutputs_passes (d : ChannelValues) (s : State) :
    (s.storeOutputs d).passes = s.passes := rfl

@[simp] theorem State.storeOutputs_pending (d : ChannelValues) (s : State) :
    (s.storeOutputs d).pending = s.pending := rfl

@[simp] theorem State.storeOutputs_trace (d : ChannelValues) (s : State) :
    (s.storeOutputs d).trace = s.trace := rfl

/-! ### touchRx -/

@[simp] theorem State.touchRx_cfg (s : State) :
    (s.touchRx).cfg = s.cfg := rfl

@[simp] theorem State.touchRx_rx (s : State) :
    (s.touchRx).rx = { s.rx with lastTick := s.now } := rfl

@[simp] theorem State.touchRx_tx (s : State) :
    (s.touchRx).tx = s.tx := rfl

@[simp] theorem State.touchRx_ch (s : State) :
    (s.touchRx).ch = s.ch := rfl

@[simp] theorem State.touchRx_now (s : State) :
    (s.touchRx).now = s.now := rfl

@[simp] theorem State.touchRx_clockOk (s : State) :
    (s.touchRx).clockOk = s.clockOk := rfl

@[simp] theorem State.touchRx_responding (s : State) :
    (s.touchRx).responding = s.responding := rfl

@[simp] theorem State.touchRx_freeCount (s : State) :
    (s.touchRx).freeCount = s.freeCount := rfl

@[simp] theorem State.touchRx_passes (s : State) :
    (s.touchRx).passes = s.passes := rfl

@[simp] theorem State.touchRx_pending (s : State) :
    (s.touchRx).pending = s.pending := rfl

@[simp] theorem State.touchRx_trace (s : State) :
    (s.touchRx).trace = s.trace := rfl

/-! ### returnToReceive -/

@[simp] theorem State.returnToReceive_cfg (s : State) :
    (s.returnToReceive).cfg = s.cfg := rfl

@[simp] theorem State.returnToReceive_rx (s : State) :
    (s.returnToReceive).rx = s.rx := rfl

@[simp] theorem State.returnToReceive_tx (s : State) :
    (s.returnToReceive).tx = { s.tx with dir := .receive, phase := .idle, len := 0 } := rfl

@[simp] theorem State.returnToReceive_ch (s : State) :
    (s.returnToReceive).ch = s.ch := rfl

@[simp] theorem State.returnToReceive_now (s : State) :
    (s.returnToReceive).now = s.now := rfl

@[simp] theorem State.returnToReceive_clockOk (s : State) :
    (s.returnToReceive).clockOk = s.clockOk := rfl

@[simp] theorem State.returnToReceive_responding (s : State) :
    (s.returnToReceive).responding = s.responding := rfl

@[simp] theorem State.returnToReceive_freeCount (s : State) :
    (s.returnToReceive).freeCount = s.freeCount := rfl

@[simp] theorem State.returnToReceive_passes (s : State) :
    (s.returnToReceive).passes = s.passes := rfl

@[simp] theorem State.returnToReceive_pending (s : State) :
    (s.returnToReceive).pending = s.pending := rfl

@[simp] theorem State.returnToReceive_trace (s : State) :
    (s.returnToReceive).trace = s.trace ++ [.dir .receive] := rfl

/-! ### sampleSuccess -/

@[simp] theorem State.sampleSuccess_cfg (v : ChannelValues) (s : State) :
    (s.sampleSuccess v).cfg = s.cfg := by
  simp only [State.sampleSuccess, State.record_cfg, State.setStale_cfg]

@[simp] theorem State.sampleSuccess_rx (v : ChannelValues) (s : State) :
    (s.sampleSuccess v).rx = s.rx := by
  simp only [State.sampleSuccess, State.record_rx, State.setStale_rx]

@[simp] theorem State.sampleSuccess_tx (v : ChannelValues) (s : State) :
    (s.sampleSuccess v).tx = s.tx := by
  simp only [State.sampleSuccess, State.record_tx, State.setStale_tx]

@[simp] theorem State.sampleSuccess_ch (v : ChannelValues) (s : State) :
    (s.sampleSuccess v).ch = { s.ch with inputs := Vector.ofFn fun i => { raw := v[i], tick := s.now }, stale := false } := by
  simp only [State.sampleSuccess, State.record_ch, State.setStale_ch]

@[simp] theorem State.sampleSuccess_now (v : ChannelValues) (s : State) :
    (s.sampleSuccess v).now = s.now := by
  simp only [State.sampleSuccess, State.record_now, State.setStale_now]

@[simp] theorem State.sampleSuccess_clockOk (v : ChannelValues) (s : State) :
    (s.sampleSuccess v).clockOk = s.clockOk := by
  simp only [State.sampleSuccess, State.record_clockOk, State.setStale_clockOk]

@[simp] theorem State.sampleSuccess_responding (v : ChannelValues) (s : State) :
    (s.sampleSuccess v).responding = s.responding := by
  simp only [State.sampleSuccess, State.record_responding, State.setStale_responding]

@[simp] theorem State.sampleSuccess_freeCount (v : ChannelValues) (s : State) :
    (s.sampleSuccess v).freeCount = s.freeCount := by
  simp only [State.sampleSuccess, State.record_freeCount, State.setStale_freeCount]

@[simp] theorem State.sampleSuccess_passes (v : ChannelValues) (s : State) :
    (s.sampleSuccess v).passes = s.passes := by
  simp only [State.sampleSuccess, State.record_passes, State.setStale_passes]

@[simp] theorem State.sampleSuccess_pending (v : ChannelValues) (s : State) :
    (s.sampleSuccess v).pending = s.pending := by
  simp only [State.sampleSuccess, State.record_pending, State.setStale_pending]

@[simp] theorem State.sampleSuccess_trace (v : ChannelValues) (s : State) :
    (s.sampleSuccess v).trace = s.trace ++ [.sample true] := by
  simp only [State.sampleSuccess, State.record_trace, State.setStale_trace]

/-! ### sampleFailure -/

@[simp] theorem State.sampleFailure_cfg (s : State) :
    (s.sampleFailure).cfg = s.cfg := rfl

@[simp] theorem State.sampleFailure_rx (s : State) :
    (s.sampleFailure).rx = s.rx := rfl

@[simp] theorem State.sampleFailure_tx (s : State) :
    (s.sampleFailure).tx = s.tx := rfl

@[simp] theorem State.sampleFailure_ch (s : State) :
    (s.sampleFailure).ch = { s.ch with stale := true } := rfl

@[simp] theorem State.sampleFailure_now (s : State) :
    (s.sampleFailure).now = s.now := rfl

@[simp] theorem State.sampleFailure_clockOk (s : State) :
    (s.sampleFailure).clockOk = s.clockOk := rfl

@[simp] theorem State.sampleFailure_responding (s : State) :
    (s.sampleFailure).responding = s.responding := rfl

@[simp] theorem State.sampleFailure_freeCount (s : State) :
    (s.sampleFailure).freeCount = s.freeCount := rfl

@[simp] theorem State.sampleFailure_passes (s : State) :
    (s.sampleFailure).passes = s.passes := rfl

@[simp] theorem State.sampleFailure_pending (s : State) :
    (s.sampleFailure).pending = s.pending := rfl

@[simp] theorem State.sampleFailure_trace (s : State) :
    (s.sampleFailure).trace = s.trace ++ [.sample false] := rfl

/-! ### beginPass -/

@[simp] theorem State.beginPass_cfg (s : State) :
    (s.beginPass).cfg = s.cfg := rfl

@[simp] theorem State.beginPass_rx (s : State) :
    (s.beginPass).rx = s.rx := rfl

@[simp] theorem State.beginPass_tx (s : State) :
    (s.beginPass).tx = s.tx := rfl

@[simp] theorem State.beginPass_ch (s : State) :
    (s.beginPass).ch = s.ch := rfl

@[simp] theorem State.beginPass_now (s : State) :
    (s.beginPass).now = s.nextInput.now % 2 ^ s.cfg.tickW := rfl

@[simp] theorem State.beginPass_clockOk (s : State) :
    (s.beginPass).clockOk = s.nextInput.clockOk := rfl

@[simp] theorem State.beginPass_responding (s : State) :
    (s.beginPass).responding = false := rfl

@[simp] theorem State.beginPass_freeCount (s : State) :
    (s.beginPass).freeCount = s.freeCount := rfl

@[simp] theorem State.beginPass_passes (s : State) :
    (s.beginPass).passes = s.passes + 1 := rfl

@[simp] theorem State.beginPass_pending (s : State) :
    (s.beginPass).pending = s.pending.tail := rfl

@[simp] theorem State.beginPass_trace (s : State) :
    (s.beginPass).trace = s.trace := rfl

/-! ### frameHeld -/

@[simp] theorem State.frameHeld_cfg (i : Instr) (s : State) :
    (s.frameHeld i).cfg = s.cfg := rfl

@[simp] theorem State.frameHeld_tx (i : Instr) (s : State) :
    (s.frameHeld i).tx = s.tx := rfl

@[simp] theorem State.frameHeld_ch (i : Instr) (s : State) :
    (s.frameHeld i).ch = s.ch := rfl

@[simp] theorem State.frameHeld_now (i : Instr) (s : State) :
    (s.frameHeld i).now = s.now := rfl

@[simp] theorem State.frameHeld_clockOk (i : Instr) (s : State) :
    (s.frameHeld i).clockOk = s.clockOk := rfl

@[simp] theorem State.frameHeld_responding (i : Instr) (s : State) :
    (s.frameHeld i).responding = s.responding := rfl

@[simp] theorem State.frameHeld_freeCount (i : Instr) (s : State) :
    (s.frameHeld i).freeCount = s.freeCount := rfl

@[simp] theorem State.frameHeld_passes (i : Instr) (s : State) :
    (s.frameHeld i).passes = s.passes := rfl

@[simp] theorem State.frameHeld_pending (i : Instr) (s : State) :
    (s.frameHeld i).pending = s.pending := rfl

@[simp] theorem State.frameHeld_trace (i : Instr) (s : State) :
    (s.frameHeld i).trace = s.trace ++ [.rx .frameOk] := rfl

end Sys2Proof.Machine
end

