-- ==== Sys2Proof/Laws/Ops.lean ====
section
/-!
SUPPORT. What each shared operation can do, said once: sequencing, ticks, byte order, responses and the dispatcher.
-/

namespace Sys2Proof.Machine

/-! ### Sequencing -/

@[simp] theorem andThen_next (s : State) (f : State → Result) : andThen (.next s) f = f s := rfl

@[simp] theorem andThen_fault (r : Fault) (f : State → Result) : andThen (.fault r) f = .fault r := rfl

@[simp] theorem andThen_refused (r : Refusal) (f : State → Result) :
    andThen (.refused r) f = .refused r := rfl

/-- A sequence answers a next state exactly when both parts do. -/
theorem andThen_eq_next {o : Result} {f : State → Result} {t : State} :
    andThen o f = .next t ↔ ∃ s, o = .next s ∧ f s = .next t := by
  cases o <;> simp

theorem andThen_assoc (o : Result) (f g : State → Result) :
    andThen (andThen o f) g = andThen o fun s => andThen (f s) g := by
  cases o <;> rfl

/-! ### Ticks -/

theorem elapsed_lt (w now t : Nat) : elapsed w now t < 2 ^ w := Nat.mod_lt _ (Nat.two_pow_pos w)

theorem elapsed_self {w now : Nat} (h : now < 2 ^ w) : elapsed w now now = 0 := by
  unfold elapsed
  rw [show now + (2 ^ w - now) = 2 ^ w by omega, Nat.mod_self]

/-- `elapsed` only ever changes the count of free values taken. -/
theorem readElapsed_state (t : Nat) (s : State) :
    (s.readElapsed t).2 = { s with freeCount := (s.readElapsed t).2.freeCount } := by
  unfold State.readElapsed; split <;> rfl

theorem readElapsed_of_clockOk {s : State} (h : s.clockOk = true) (t : Nat) :
    s.readElapsed t = (elapsed s.cfg.tickW s.now t, s) := by
  simp [State.readElapsed, h]

theorem readElapsed_lt (t : Nat) (s : State) : (s.readElapsed t).1 < 2 ^ s.cfg.tickW := by
  unfold State.readElapsed
  split
  · exact elapsed_lt _ _ _
  · exact Nat.mod_lt _ (Nat.two_pow_pos _)

section
variable (t : Nat) (s : State)

@[simp] theorem readElapsed_cfg : (s.readElapsed t).2.cfg = s.cfg := by rw [readElapsed_state]
@[simp] theorem readElapsed_rx : (s.readElapsed t).2.rx = s.rx := by rw [readElapsed_state]
@[simp] theorem readElapsed_tx : (s.readElapsed t).2.tx = s.tx := by rw [readElapsed_state]
@[simp] theorem readElapsed_ch : (s.readElapsed t).2.ch = s.ch := by rw [readElapsed_state]
@[simp] theorem readElapsed_now : (s.readElapsed t).2.now = s.now := by rw [readElapsed_state]
@[simp] theorem readElapsed_clockOk : (s.readElapsed t).2.clockOk = s.clockOk := by
  rw [readElapsed_state]
@[simp] theorem readElapsed_responding : (s.readElapsed t).2.responding = s.responding := by
  rw [readElapsed_state]
@[simp] theorem readElapsed_passes : (s.readElapsed t).2.passes = s.passes := by
  rw [readElapsed_state]
@[simp] theorem readElapsed_pending : (s.readElapsed t).2.pending = s.pending := by
  rw [readElapsed_state]
@[simp] theorem readElapsed_trace : (s.readElapsed t).2.trace = s.trace := by
  rw [readElapsed_state]

end

/-! ### Ports -/

theorem writeBytes_eq_next {bs : List Byte} {s t : State} :
    s.writeBytes bs = .next t ↔ s.tx.dir = .transmit ∧ t = s.record (.tx bs) := by
  unfold State.writeBytes
  split <;> simp_all [eq_comm]

/-! ### Byte order -/

theorem le16_length (v : Half) : (le16 v).length = 2 := rfl

theorem u16_le16 (v : Half) : u16 (v.setWidth 8) ((v >>> 8).setWidth 8) = v := by
  unfold u16
  ext i hi
  simp only [BitVec.getElem_or, BitVec.getElem_setWidth, BitVec.getElem_shiftLeft,
    BitVec.getLsbD_setWidth, BitVec.getLsbD_ushiftRight]
  by_cases h : i < 8
  · simp [h, BitVec.getLsbD_eq_getElem hi]
  · have h8 : i - 8 < 8 := by omega
    have : 8 + (i - 8) = i := by omega
    simp [h, h8, this, BitVec.getLsbD_eq_getElem hi]

/-! ### Frames and responses -/

theorem crcField_length (p : Params) (bytes : List Byte) :
    (crcField p bytes).length = p.crcProfile.bytes := by
  unfold crcField CrcProfile.bytes
  cases p.crcProfile <;> rfl

/-- A frame is 4 + n + c bytes long (30_encoding.md R82). -/
theorem frameBytes_length (p : Params) (addr cmd : Byte) (payload : List Byte) :
    (frameBytes p addr cmd payload).length = 4 + payload.length + p.crcProfile.bytes := by
  simp [frameBytes, coveredBytes, crcField_length]
  omega

theorem encodeFrame_eq_some {p : Params} {payload : List Byte}
    (h : payload.length ≤ p.maxPayload.toNat) (addr cmd : Byte) :
    encodeFrame p addr cmd payload = some (frameBytes p addr cmd payload) := by
  simp [encodeFrame, h]

theorem startResponse_of_fits {s : State} {rp : List Byte}
    (h : rp.length ≤ s.cfg.maxPayload.toNat) (rc : Byte) :
    s.startResponse rc rp
      = (s.setDirection .transmit).loadTx (frameBytes s.cfg s.cfg.boardAddr rc rp) := by
  simp [State.startResponse, encodeFrame_eq_some h]

/-- A response whose payload fits is started, whatever the state (42_control_loop.md R196). -/
theorem respond_of_fits {s : State} {rp : List Byte}
    (h : rp.length ≤ s.cfg.maxPayload.toNat) (rc : Byte) : s.respond rc rp = s.withResponse rc rp := by
  simp only [State.respond, startResponse_of_fits h]
  rfl

/-! ### The dispatcher -/

/-- A frame for another board has no effect (41_commands.md R161). -/
theorem dispatch_other {s : State} {addr : Byte} (hb : addr ≠ s.cfg.boardAddr)
    (hc : addr ≠ s.cfg.broadcastAddr) (command : State → Answer) : s.dispatch addr command = s := by
  simp [State.dispatch, hb, hc]

/-- A broadcast frame has its effect and no response (41_commands.md R162). -/
theorem dispatch_broadcast (s : State) (command : State → Answer) :
    s.dispatch s.cfg.broadcastAddr command = (command s).state := by
  simp [State.dispatch]

/-- A frame for this board has its effect and its response (41_commands.md R160). -/
theorem dispatch_own {s : State} (h : s.cfg.boardAddr ≠ s.cfg.broadcastAddr)
    (command : State → Answer) :
    s.dispatch s.cfg.boardAddr command = (command s).state.respond (command s).cmd (command s).payload := by
  simp [State.dispatch, h]

/-- The three things a dispatch can do. -/
theorem dispatch_cases (s : State) (addr : Byte) (command : State → Answer) :
    s.dispatch addr command = s ∨ s.dispatch addr command = (command s).state ∨
      s.dispatch addr command = (command s).state.respond (command s).cmd (command s).payload := by
  unfold State.dispatch
  split
  · exact .inl rfl
  · split
    · exact .inr (.inl rfl)
    · exact .inr (.inr rfl)

/-- The four command rules in one place: the effect and the response that `exec` dispatches. -/
def commandOf : Instr → State → Answer
  | .ping _ payload => pingCommand payload
  | .readInputs _ payload => readInputsCommand payload
  | .setOutputs _ payload => setOutputsCommand payload
  | .reserved _ cmd _ => reservedCommand cmd

/-- Every command goes on (60_exceptions.md R230, R241). -/
theorem exec_eq_dispatch (i : Instr) (s : State) :
    exec i s = .next (s.dispatch i.addr (commandOf i)) := by
  cases i <;> rfl

/-- What a command does to the state: nothing, or SET_OUTPUTS stores 16 values in range (41_commands.md R165, R175, R186). -/
theorem commandOf_state (i : Instr) (s : State) :
    (commandOf i s).state = s ∨
      ∃ addr payload, i = .setOutputs addr payload ∧ payload.length = 32 ∧
        ¬ OutOfRange s.cfg (dutyValues payload) ∧
        (commandOf i s).state = s.storeOutputs (dutyValues payload) := by
  cases i with
  | ping a pl =>
    left
    simp only [commandOf, pingCommand]
    split <;> rfl
  | readInputs a pl =>
    left
    simp only [commandOf, readInputsCommand]
    split <;> rfl
  | reserved a c pl => exact .inl rfl
  | setOutputs a pl =>
    simp only [commandOf, setOutputsCommand]
    split
    · exact .inl rfl
    · split
      · exact .inl rfl
      · exact .inr ⟨a, pl, rfl, by simp_all, ‹_›, rfl⟩

/-- A response is started, or its payload is too long and nothing is sent (42_control_loop.md R196; 40_frame_codec.md R141). -/
theorem respond_cases (rc : Byte) (rp : List Byte) (s : State) :
    s.respond rc rp = { s with responding := true } ∨
      (rp.length ≤ s.cfg.maxPayload.toNat ∧ s.respond rc rp = s.withResponse rc rp) := by
  by_cases h : rp.length ≤ s.cfg.maxPayload.toNat
  · exact .inr ⟨h, respond_of_fits h rc⟩
  · left
    simp [State.respond, State.startResponse, encodeFrame, Nat.lt_of_not_le h]

/-- What one dispatched frame can do: nothing, or a change of OUT, or, addressed to this board alone, a change of OUT and a
response (41_commands.md R160-R162). -/
theorem dispatch_shape (i : Instr) (addr : Byte) (s : State) :
    s.dispatch addr (commandOf i) = s ∨
    (∃ out, s.dispatch addr (commandOf i) = { s with ch := { s.ch with out := out } }) ∨
    (∃ out rc rp, addr = s.cfg.boardAddr ∧ addr ≠ s.cfg.broadcastAddr ∧
      s.dispatch addr (commandOf i) = State.respond rc rp { s with ch := { s.ch with out := out } }) := by
  have hstate : ∃ out, (commandOf i s).state = { s with ch := { s.ch with out := out } } := by
    rcases commandOf_state i s with e | ⟨_, _, -, -, -, e⟩
    · exact ⟨s.ch.out, e⟩
    · exact ⟨_, e⟩
  obtain ⟨out, e⟩ := hstate
  unfold State.dispatch
  split
  · exact .inl rfl
  · rename_i hfor
    split
    · exact .inr (.inl ⟨out, e⟩)
    · rename_i hown
      refine .inr (.inr ⟨out, (commandOf i s).cmd, (commandOf i s).payload, ?_, hown, by rw [e]⟩)
      by_contra hboard
      exact hfor ⟨hboard, hown⟩

end Sys2Proof.Machine
end

