-- ==== Sys2Proof/Laws/Codec.lean ====
section
/-!
SUPPORT. The frame codec's functions, said once: byte order, the LENGTH byte, the CRC step, and the command map.
-/

namespace Sys2Proof

open Sys2Proof.Machine

/-! ### Byte order -/

theorem setWidth_low (v : Half) : BitVec.setWidth 8 v = v.extractLsb' 0 8 := by
  ext i hi; simp [BitVec.getElem_setWidth]

theorem setWidth_high (v : Half) : BitVec.setWidth 8 (v >>> 8) = v.extractLsb' 8 8 := by
  ext i hi; simp [BitVec.getElem_setWidth]

/-- The two bytes of a 16-bit value, low byte first (20_memory.md R61). -/
theorem le16_eq_extract (v : Half) : le16 v = [v.extractLsb' 0 8, v.extractLsb' 8 8] := by
  rw [le16, setWidth_low v, setWidth_high v]

/-- Two bytes assemble to a value exactly when they are its split (41_commands.md R184 (e)). -/
theorem u16_eq_iff {lo hi : Byte} {v : Half} : u16 lo hi = v ↔ [lo, hi] = le16 v := by
  constructor
  · rintro rfl
    simp only [le16, List.cons.injEq, and_true]
    constructor
    · ext i h
      simp [u16]
    · ext i h
      simp [u16, h, BitVec.getElem_setWidth, show 8 + i < 16 by omega]
  · intro h
    simp only [le16, List.cons.injEq, and_true] at h
    rw [h.1, h.2, u16_le16]

/-! ### LENGTH -/

/-- The LENGTH byte holds the payload's length whenever the payload fits (30_encoding.md R80). -/
theorem lengthByte_toNat {p : Params} {payload : List Byte} (h : payload.length ≤ p.maxPayload.toNat) :
    (lengthByte payload).toNat = payload.length := by
  have := p.maxPayload.isLt
  simp [lengthByte]
  omega

/-! ### CRC -/

/-- One CRC shift loses nothing where the polynomial's lowest bit is set. -/
theorem crcShift_injective {w : Nat} (hw : 0 < w) {poly a b : BitVec w} (hp : poly.getLsbD 0 = true)
    (h : (if a.msb then (a <<< 1) ^^^ poly else a <<< 1)
      = (if b.msb then (b <<< 1) ^^^ poly else b <<< 1)) : a = b := by
  have hm : a.msb = b.msb := by
    have := congrArg (fun x => x.getLsbD 0) h
    cases ha : a.msb <;> cases hb : b.msb <;> rw [ha, hb] at this <;> simp [hw] at this <;>
      simp_all
  rw [hm] at h
  have hs : a <<< 1 = b <<< 1 := by
    split at h
    · exact (BitVec.xor_left_inj _).1 h
    · exact h
  apply BitVec.eq_of_getLsbD_eq
  intro i hi
  by_cases hlast : i = w - 1
  · subst hlast
    simpa [BitVec.msb_eq_getLsbD_last] using hm
  · have := congrArg (fun x => x.getLsbD (i + 1)) hs
    simpa [show i + 1 < w by omega, BitVec.getLsbD_eq_getElem hi] using this

/-- `n` CRC shifts lose nothing. -/
theorem crcShifts_injective {w : Nat} (hw : 0 < w) {poly : BitVec w} (hp : poly.getLsbD 0 = true)
    (n : Nat) {a b : BitVec w} (h : crcShifts poly n a = crcShifts poly n b) : a = b := by
  induction n generalizing a b with
  | zero => exact h
  | succ n ih =>
    simp only [crcShifts] at h
    apply crcShift_injective hw hp
    apply ih
    split at h <;> split at h <;> simp_all

/-! ### The command map -/

/-- The command map keeps ADDRESS, COMMAND and PAYLOAD. -/
theorem decodeCommand_fields (p : Params) (addr cmd : Byte) (payload : List Byte) :
    (decodeCommand p addr cmd payload).addr = addr ∧ (decodeCommand p addr cmd payload).cmd p = cmd ∧
      (decodeCommand p addr cmd payload).payload = payload := by
  unfold decodeCommand
  repeat' split
  all_goals simp_all [Instr.cmd, Instr.addr, Instr.payload]

/-- The command map selects a constructor that stands for the COMMAND byte. -/
theorem decodeCommand_cmdFits (p : Params) (addr cmd : Byte) (payload : List Byte) :
    (decodeCommand p addr cmd payload).cmdFits p = true := by
  unfold decodeCommand
  repeat' split
  all_goals simp_all [Instr.cmdFits, Params.IsReserved]

end Sys2Proof
end

