-- ==== Sys2Proof/Laws/Receiver.lean ====
section
/-!
SUPPORT. What the receiver's step can do, said once: it changes only receiver registers, the free-value count and the
observation, and it appends receiver events only.
-/

namespace Sys2Proof.Machine

/-- `t` differs from `s` in receiver registers, the free-value count and appended receiver events `es` only. -/
structure ReceiverStep (s t : State) (es : List RxEvent) : Prop where
  cfg : t.cfg = s.cfg
  tx : t.tx = s.tx
  ch : t.ch = s.ch
  now : t.now = s.now
  clockOk : t.clockOk = s.clockOk
  responding : t.responding = s.responding
  passes : t.passes = s.passes
  pending : t.pending = s.pending
  trace : t.trace = s.trace ++ es.map Event.rx

theorem ReceiverStep.refl (s : State) : ReceiverStep s s [] := by constructor <;> simp

theorem ReceiverStep.trans {s t u : State} {es fs : List RxEvent} (h : ReceiverStep s t es)
    (k : ReceiverStep t u fs) : ReceiverStep s u (es ++ fs) := by
  constructor
  · rw [k.cfg, h.cfg]
  · rw [k.tx, h.tx]
  · rw [k.ch, h.ch]
  · rw [k.now, h.now]
  · rw [k.clockOk, h.clockOk]
  · rw [k.responding, h.responding]
  · rw [k.passes, h.passes]
  · rw [k.pending, h.pending]
  · simp [k.trace, h.trace]

theorem readElapsed_receiverStep (tick : Nat) (s : State) :
    ReceiverStep s (s.readElapsed tick).2 [] := by constructor <;> simp

theorem transportError_receiverStep (r : TransportReason) (s : State) :
    ReceiverStep s (s.transportError r) [.error r] := by constructor <;> simp

theorem touchRx_receiverStep (s : State) : ReceiverStep s s.touchRx [] := by constructor <;> simp

/-- The timeout check either leaves the receiver as it is, or fires mid-frame. -/
theorem timeoutCheck_cases (s : State) :
    (s.timeoutCheck.rx = s.rx ∧ ReceiverStep s s.timeoutCheck []) ∨
    (s.rx.phase ≠ .idle ∧ s.timeoutCheck.rx = { s.rx with phase := .idle, j := false } ∧
      ReceiverStep s s.timeoutCheck [.error .timeout]) := by
  unfold State.timeoutCheck
  split
  · exact .inl ⟨rfl, .refl s⟩
  · rename_i h
    simp only
    split
    · refine .inr ⟨h, by simp, ?_⟩
      simpa using (readElapsed_receiverStep _ s).trans (transportError_receiverStep _ _)
    · exact .inl ⟨by simp, readElapsed_receiverStep _ s⟩

/-- After a timeout check the receiver is in Idle, or within INTERBYTE_TIMEOUT of its last byte (40_frame_codec.md R121). -/
theorem timeoutCheck_bound {s : State} (h : s.clockOk = true) :
    s.timeoutCheck.rx.phase = .idle ∨
      elapsed s.timeoutCheck.cfg.tickW s.timeoutCheck.now s.timeoutCheck.rx.lastTick
        ≤ s.timeoutCheck.cfg.interbyteTimeout := by
  unfold State.timeoutCheck
  split
  · exact .inl ‹_›
  · simp only [readElapsed_of_clockOk h]
    split
    · exact .inl rfl
    · exact .inr (by omega)

theorem timeoutCheck_of_idle {s : State} (h : s.rx.phase = .idle) : s.timeoutCheck = s := by
  simp [State.timeoutCheck, h]

/-- The outcomes of one transition: no event and no frame, one transport error and Idle, or a completed frame and Idle. -/
theorem rxTransition_cases (b : Byte) (s : State) :
    ((s.rxTransition b).1 = none ∧ ReceiverStep s (s.rxTransition b).2 [] ∧
      ((s.rxTransition b).2.rx.phase = .idle → s.rx.phase = .idle)) ∨
    (∃ r, (s.rxTransition b).1 = none ∧ ReceiverStep s (s.rxTransition b).2 [.error r] ∧
      (s.rxTransition b).2.rx = { s.rx with phase := .idle, j := false }) ∨
    (s.rx.phase = .gotCrc ∧ (s.rxTransition b).1 =
        some { addr := s.rx.addr, cmd := s.rx.cmd, payload := s.rx.heldPayload } ∧
      ReceiverStep s (s.rxTransition b).2 [.frameOk] ∧
      (s.rxTransition b).2.rx = { s.rx with phase := .idle, j := false }) := by
  unfold State.rxTransition
  split
  · refine .inl ⟨rfl, ?_, fun _ => ‹_›⟩
    simp only [State.rxIdle]
    split
    · constructor <;> simp
    · exact .refl s
  · exact .inl ⟨rfl, by constructor <;> simp [State.rxGotAddress], by simp [State.rxGotAddress]⟩
  · exact .inl ⟨rfl, by constructor <;> simp [State.rxGotCommand], by simp [State.rxGotCommand]⟩
  · unfold State.rxGotLength
    split
    · exact .inr (.inl ⟨_, rfl, transportError_receiverStep _ s, rfl⟩)
    · refine .inl ⟨rfl, by constructor <;> simp, ?_⟩
      simp only
      split <;> simp
  · refine .inl ⟨rfl, by constructor <;> simp [State.rxPayload], ?_⟩
    simp only [State.rxPayload]
    split <;> simp_all
  · split
    · exact .inl ⟨rfl, by constructor <;> simp [State.rxFirstCrc], by simp [State.rxFirstCrc]⟩
    · unfold State.rxLastCrc
      split
      · exact .inr (.inr ⟨‹_›, rfl, by constructor <;> simp, rfl⟩)
      · exact .inr (.inl ⟨_, rfl, transportError_receiverStep _ s, rfl⟩)

/-- The receiver's step on one byte, said once. The events are at most a timeout and then the transition's own. -/
theorem rxByte_receiverStep (b : Byte) (s : State) :
    ∃ es, ReceiverStep s (s.rxByte b).2 es ∧ ((s.rxByte b).1 = none → RxEvent.frameOk ∉ es) ∧
      RxEvent.dropped ∉ es := by
  have h1 : ∃ es, ReceiverStep s s.timeoutCheck.touchRx es ∧ RxEvent.frameOk ∉ es ∧
      RxEvent.dropped ∉ es := by
    rcases timeoutCheck_cases s with ⟨-, h⟩ | ⟨-, -, h⟩
    · exact ⟨_, h.trans (touchRx_receiverStep _), by simp, by simp⟩
    · exact ⟨_, h.trans (touchRx_receiverStep _), by simp, by simp⟩
  obtain ⟨es, h, hf, hd⟩ := h1
  rcases rxTransition_cases b s.timeoutCheck.touchRx with ⟨-, k, -⟩ | ⟨r, -, k, -⟩ | ⟨-, hs, k, -⟩
  · exact ⟨_, h.trans k, by simp [hf], by simp [hd]⟩
  · exact ⟨_, h.trans k, by simp [hf], by simp [hd]⟩
  · refine ⟨_, h.trans k, ?_, by simp [hd]⟩
    intro hn
    simp [State.rxByte, hs] at hn

/-- The step as a change of three fields. -/
theorem ReceiverStep.eq {s t : State} {es : List RxEvent} (h : ReceiverStep s t es) :
    t = { s with rx := t.rx, freeCount := t.freeCount, trace := s.trace ++ es.map Event.rx } := by
  obtain ⟨h1, h2, h3, h4, h5, h6, h7, h8, h9⟩ := h
  cases t
  simp_all

/-- A completed frame leaves the receiver in Idle and records FRAME_OK. -/
theorem rxByte_frame {b : Byte} {s : State} (h : (s.rxByte b).1 ≠ none) :
    (s.rxByte b).2.rx.phase = .idle ∧
      ∃ es, ReceiverStep s (s.rxByte b).2 es ∧ RxEvent.frameOk ∈ es := by
  unfold State.rxByte at *
  rcases rxTransition_cases b s.timeoutCheck.touchRx with ⟨h1, -⟩ | ⟨r, h1, -⟩ | ⟨-, -, k, hr⟩
  · exact absurd h1 h
  · exact absurd h1 h
  · refine ⟨by rw [hr], ?_⟩
    rcases timeoutCheck_cases s with ⟨-, h⟩ | ⟨-, -, h⟩
    · exact ⟨_, (h.trans (touchRx_receiverStep _)).trans k, by simp⟩
    · exact ⟨_, (h.trans (touchRx_receiverStep _)).trans k, by simp⟩

/-- Where the timeout does not fire, a byte is one tick update and one transition (40_frame_codec.md R120). -/
theorem rxByte_of_noTimeout {b : Byte} {s : State} (hc : s.clockOk = true)
    (h : s.rx.phase = .idle ∨ elapsed s.cfg.tickW s.now s.rx.lastTick ≤ s.cfg.interbyteTimeout) :
    s.rxByte b = s.touchRx.rxTransition b := by
  have : s.timeoutCheck = s := by
    rcases h with h | h
    · exact timeoutCheck_of_idle h
    · unfold State.timeoutCheck
      split
      · rfl
      · simp only [readElapsed_of_clockOk hc]
        rw [if_neg (by omega)]
  rw [State.rxByte, this]

/-! ### The receiver's invariants (10_state.md R40) -/

theorem ReceiverWf.toIdle {p : Params} {r : Receiver} (h : ReceiverWf p r) :
    ReceiverWf p { r with phase := .idle, j := false } :=
  ⟨by simp, h.2.1, by simp, h.2.2.2.1, h.2.2.2.2⟩

/-- One transition keeps the receiver's invariants. -/
theorem rxTransition_receiverWf {b : Byte} {s : State} (h : ReceiverWf s.cfg s.rx) :
    ReceiverWf s.cfg (s.rxTransition b).2.rx := by
  have hj : s.rx.phase ≠ .gotCrc → s.rx.j = false := by
    intro hp
    by_contra hj
    exact hp (h.2.2.1 (by simpa using hj)).1
  have hidle := h.toIdle
  obtain ⟨h1, h2, h3, h4, h5⟩ := id h
  unfold State.rxTransition
  split
  · unfold State.rxIdle
    split
    · exact ⟨by simp, h2, by simp [hj (by simp [*])], h4, h5⟩
    · exact h
  · exact ⟨by simp [State.rxGotAddress], h2, by simp [State.rxGotAddress, hj (by simp [*])], h4, h5⟩
  · exact ⟨by simp [State.rxGotCommand], h2, by simp [State.rxGotCommand, hj (by simp [*])], h4, h5⟩
  · unfold State.rxGotLength
    split
    · exact hidle
    · refine ⟨?_, by simp_all, by simp, h4, h5⟩
      simp only
      intro hp
      split at hp
      · simp at hp
      · rename_i hb
        show (0#8) < b
        bv_omega
  · rename_i hp
    have hk := h1 hp
    unfold State.rxPayload
    simp only
    split
    · exact ⟨by simp, h2, by simp, by simpa using h4, h5⟩
    · rename_i hne
      refine ⟨fun _ => ?_, h2, ?_, by simpa using h4, h5⟩
      · simp only at hne ⊢
        bv_omega
      · simp_all
  · split
    · exact ⟨by simp_all [State.rxFirstCrc], h2, by simp_all [State.rxFirstCrc], h4, h5⟩
    · unfold State.rxLastCrc
      split
      · exact hidle
      · exact hidle

end Sys2Proof.Machine
end

