-- ==== Sys2Proof/Laws/Loop.lean ====
section
/-!
SUPPORT. What the loop's parts can do, said once: one byte of the drain, the drain by induction over its bytes, and the
steps of the pass.
-/

namespace Sys2Proof.Machine

/-! ### The drain -/

/-- One byte of the drain is dropped, or consumed without a frame, or completes a frame that is executed. -/
theorem drainByte_cases {b : Byte} {s t : State} (h : drainByte b s = .next t) :
    (s.Dropping ∧ t = s.record (.rx .dropped)) ∨
    (¬ s.Dropping ∧ (s.rxByte b).1 = none ∧ t = (s.rxByte b).2) ∨
    (¬ s.Dropping ∧ ∃ f, (s.rxByte b).1 = some f ∧
      t = (s.rxByte b).2.dispatch f.addr
        (commandOf (decodeCommand (s.rxByte b).2.cfg f.addr f.cmd f.payload))) := by
  unfold drainByte at h
  split at h
  · exact .inl ⟨‹_›, by cases h; rfl⟩
  · split at h
    · exact .inr (.inl ⟨‹_›, ‹_›, by cases h; rfl⟩)
    · refine .inr (.inr ⟨‹_›, _, ‹_›, ?_⟩)
      rw [dispatchFrame, exec_eq_dispatch] at h
      cases h
      congr 1
      unfold decodeCommand
      split <;> [rfl; split <;> [rfl; split <;> rfl]]

/-- Every byte of a drain goes on. -/
theorem drainByte_total (b : Byte) (s : State) : ∃ t, drainByte b s = .next t := by
  unfold drainByte
  split
  · exact ⟨_, rfl⟩
  · split
    · exact ⟨_, rfl⟩
    · exact ⟨_, exec_eq_dispatch _ _⟩

@[simp] theorem drain_nil (s : State) : drain [] s = .next s := rfl

theorem drain_cons (b : Byte) (q : List Byte) (s : State) :
    drain (b :: q) s = andThen (drainByte b s) (drain q) := rfl

theorem drain_append (q r : List Byte) (s : State) :
    drain (q ++ r) s = andThen (drain q s) (drain r) := by
  induction q generalizing s with
  | nil => rfl
  | cons b q ih =>
    simp only [List.cons_append, drain_cons, andThen_assoc]
    congr 1
    funext t
    exact ih t

/-- Every drain goes on. -/
theorem drain_total (q : List Byte) (s : State) : ∃ t, drain q s = .next t := by
  induction q generalizing s with
  | nil => exact ⟨s, rfl⟩
  | cons b q ih =>
    obtain ⟨t, ht⟩ := drainByte_total b s
    obtain ⟨u, hu⟩ := ih t
    exact ⟨u, by simp [drain_cons, ht, hu]⟩

/-- What one byte keeps, a drain keeps. -/
theorem drain_induct {P : State → Prop}
    (step : ∀ b s t, P s → drainByte b s = .next t → P t) {q : List Byte} {s t : State}
    (hs : P s) (h : drain q s = .next t) : P t := by
  induction q generalizing s with
  | nil => cases h; exact hs
  | cons b q ih =>
    rw [drain_cons, andThen_eq_next] at h
    obtain ⟨u, hu, h⟩ := h
    exact ih (step b s u hs hu) h

/-! ### Steps 3 to 5 -/

/-- The pass as a sequence: the drain, then the transmit step, and then steps that always go on. -/
theorem pass_eq_next {s t : State} :
    pass s = .next t ↔ ∃ u v, drain s.nextInput.rx s.beginPass = .next u ∧
      transmitStep s.nextInput.txComplete u = .next v ∧
      t = (pwmRefresh (sampleStep s.nextInput.sample v)).timeoutCheck := by
  simp only [pass, finishPass, andThen_eq_next]
  constructor
  · rintro ⟨u, hu, v, hv, h⟩
    exact ⟨u, v, hu, hv, by cases h; rfl⟩
  · rintro ⟨u, v, hu, hv, rfl⟩
    exact ⟨u, hu, v, hv, rfl⟩

/-- A step that goes on is a pass from a state within the premises. -/
theorem step_eq_next {s t : State} :
    step s = .next t ↔ Valid s.cfg ∧ Wf s ∧ pass s = .next t := by
  unfold step runPass
  by_cases hv : Valid s.cfg
  · rw [if_pos hv]
    by_cases hw : Wf s
    · rw [if_pos hw]
      exact ⟨fun h => ⟨hv, hw, h⟩, fun h => h.2.2⟩
    · rw [if_neg hw]
      exact ⟨nofun, fun h => absurd h.2.1 hw⟩
  · rw [if_neg hv]
    exact ⟨nofun, fun h => absurd h.1 hv⟩

/-- The turnaround step waits, or writes the response with the line in Transmit. -/
theorem turnaroundStep_cases {s t : State} (h : turnaroundStep s = .next t) :
    (t = { s with freeCount := t.freeCount } ) ∨
    (s.tx.phase = .turnaround ∧ s.tx.dir = .transmit ∧ t = { s with
      freeCount := t.freeCount
      tx := { s.tx with phase := .drain }
      trace := s.trace ++ [.tx (s.tx.buf.take s.tx.len)] }) := by
  unfold turnaroundStep at h
  split at h
  · simp only at h
    split at h
    · rw [andThen_eq_next] at h
      obtain ⟨u, hu, h⟩ := h
      rw [writeBytes_eq_next] at hu
      obtain ⟨hd, rfl⟩ := hu
      cases h
      refine .inr ⟨‹_›, by simpa using hd, ?_⟩
      rw [readElapsed_state]
      rfl
    · cases h
      exact .inl (readElapsed_state _ _)
  · cases h
    exact .inl rfl

/-- A sampling step does nothing, or takes one sample. -/
theorem sampleStep_cases (result : Option ChannelValues) (s : State) :
    (∃ n, sampleStep result s = { s with freeCount := n }) ∨
    ∃ n, sampleStep result s = State.takeSample result { s with freeCount := n } := by
  unfold sampleStep
  split
  · exact .inr ⟨s.freeCount, rfl⟩
  · simp only
    rw [readElapsed_state]
    split
    · exact .inr ⟨_, rfl⟩
    · exact .inl ⟨_, rfl⟩

theorem takeSample_some (v : ChannelValues) (s : State) :
    s.takeSample (some v) = { s with
      ch := { s.ch with
        lastCad := s.now
        cadPrimed := true
        stale := false
        inputs := Vector.ofFn fun i => { raw := v[i], tick := s.now } }
      trace := s.trace ++ [.sample true] } := by
  simp only [State.takeSample, State.sampleSuccess, State.setStale, State.record]

theorem takeSample_none (s : State) :
    s.takeSample none = { s with
      ch := { s.ch with lastCad := s.now, cadPrimed := true, stale := true }
      trace := s.trace ++ [.sample false] } := rfl

/-- OUT differs from APPLIED exactly where some channel does. -/
theorem refreshDue_iff (s : State) :
    s.RefreshDue ↔ s.ch.appliedValid = false ∨ s.ch.out ≠ s.ch.applied := by
  unfold State.RefreshDue
  constructor
  · rintro (h | ⟨i, h⟩)
    · exact .inl h
    · exact .inr fun e => h (by rw [e])
  · rintro (h | h)
    · exact .inl h
    · refine .inr ?_
      by_contra hn
      push Not at hn
      exact h (Vector.ext fun i hi => hn ⟨i, hi⟩)

/-- The refresh does nothing, or pushes OUT; either way APPLIED is OUT after it. -/
theorem pwmRefresh_cases (s : State) :
    (s.ch.appliedValid = true ∧ s.ch.applied = s.ch.out ∧ pwmRefresh s = s) ∨
    pwmRefresh s = { s with
      ch := { s.ch with applied := s.ch.out, appliedValid := true }
      trace := s.trace ++ [.outputs s.ch.out] } := by
  unfold pwmRefresh
  split
  · exact .inr rfl
  · rename_i h
    rw [refreshDue_iff] at h
    push Not at h
    exact .inl ⟨by simpa using h.1, h.2.symm, rfl⟩

/-- The end of a transmission, or nothing (42_control_loop.md R198, R199). -/
theorem drainStep_cases (complete : Bool) (s : State) :
    drainStep complete s = s ∨
    (complete = true ∧ s.tx.phase = .drain ∧ drainStep complete s = { s with
      tx := { s.tx with dir := .receive, phase := .idle, len := 0 }
      trace := s.trace ++ [.dir .receive] }) := by
  unfold drainStep
  split
  · exact .inr ⟨‹_ ∧ _›.2, ‹_ ∧ _›.1, rfl⟩
  · exact .inl rfl

/-- The sweep, or any timeout check, changes receiver registers and the free-value count, and records at most a timeout. -/
theorem timeoutCheck_shape (s : State) :
    ∃ r n es, s.timeoutCheck
        = { s with rx := r, freeCount := n, trace := s.trace ++ List.map Event.rx es } ∧
      RxEvent.frameOk ∉ es := by
  rcases timeoutCheck_cases s with ⟨-, k⟩ | ⟨-, -, k⟩
  · exact ⟨_, _, [], k.eq, by simp⟩
  · exact ⟨_, _, [.error .timeout], k.eq, by simp⟩

/-- What one byte of the drain can do: receiver registers and receiver events without a FRAME_OK; or a completed frame that
changes OUT at most; or a completed frame that starts a response (42_control_loop.md R192-R195). -/
theorem drainByte_shape {b : Byte} {s t : State} (h : drainByte b s = .next t) :
    (∃ r n es, t = { s with rx := r, freeCount := n, trace := s.trace ++ List.map Event.rx es } ∧
      RxEvent.frameOk ∉ es) ∨
    (¬ s.Dropping ∧ ∃ r n es out, RxEvent.frameOk ∈ es ∧
      t = { s with rx := r, freeCount := n, trace := s.trace ++ List.map Event.rx es,
                   ch := { s.ch with out := out } }) ∨
    (¬ s.Dropping ∧ s.cfg.boardAddr ≠ s.cfg.broadcastAddr ∧ ∃ r n es out rc rp, RxEvent.frameOk ∈ es ∧
      t = State.respond rc rp
        { s with rx := r, freeCount := n, trace := s.trace ++ List.map Event.rx es,
                 ch := { s.ch with out := out } }) := by
  rcases drainByte_cases h with ⟨-, rfl⟩ | ⟨-, hn, rfl⟩ | ⟨hd, f, hf, rfl⟩
  · exact .inl ⟨s.rx, s.freeCount, [.dropped], rfl, by simp⟩
  · obtain ⟨es, k, hok, -⟩ := rxByte_receiverStep b s
    exact .inl ⟨_, _, es, k.eq, hok hn⟩
  · obtain ⟨-, es, k, hmem⟩ := rxByte_frame (b := b) (s := s) (by simp [hf])
    obtain ⟨r, n, e⟩ : ∃ r n, (s.rxByte b).2
        = { s with rx := r, freeCount := n, trace := s.trace ++ List.map Event.rx es } := ⟨_, _, k.eq⟩
    rw [e]
    rcases dispatch_shape (decodeCommand s.cfg f.addr f.cmd f.payload) f.addr
      { s with rx := r, freeCount := n, trace := s.trace ++ List.map Event.rx es }
      with e1 | ⟨out, e1⟩ | ⟨out, rc, rp, hb, hc, e1⟩
    · exact .inr (.inl ⟨hd, r, n, es, s.ch.out, hmem, e1⟩)
    · exact .inr (.inl ⟨hd, r, n, es, out, hmem, e1⟩)
    · exact .inr (.inr ⟨hd, fun h => hc (hb.trans h), r, n, es, out, rc, rp, hmem, e1⟩)

end Sys2Proof.Machine
end

