-- ==== Sys2Proof/Laws/PerInstr.lean ====
section
/-!
SUPPORT. Statements made for every instruction, one lemma per constructor: the command map reads a well-formed instruction's
COMMAND byte back as that instruction (30_encoding.md R88, R89).
-/

namespace Sys2Proof.Laws.CommandDecodes

open Sys2Proof Sys2Proof.Machine

/-- The command map gives the instruction back from its ADDRESS, COMMAND and PAYLOAD, under every configuration with
distinct command codes in which it is well formed. -/
def Statement (i : Instr) : Prop :=
  ∀ p : Params, CommandCodesDistinct p → i.WellFormed p →
    decodeCommand p i.addr (i.cmd p) i.payload = i

theorem ping (addr : Byte) (payload : List Byte) : Statement (.ping addr payload) := by
  intro p _ _
  simp [decodeCommand, Instr.cmd, Instr.addr, Instr.payload]

theorem readInputs (addr : Byte) (payload : List Byte) : Statement (.readInputs addr payload) := by
  intro p hd _
  have h : p.cmdPing ≠ p.cmdReadInputs := by simp [CommandCodesDistinct] at hd; exact hd.1.1
  simp [decodeCommand, Instr.cmd, Instr.addr, Instr.payload, Ne.symm h]

theorem setOutputs (addr : Byte) (payload : List Byte) : Statement (.setOutputs addr payload) := by
  intro p hd _
  have h : p.cmdPing ≠ p.cmdSetOutputs ∧ p.cmdReadInputs ≠ p.cmdSetOutputs := by
    simp [CommandCodesDistinct] at hd; exact ⟨hd.1.2.1, hd.2.1.1⟩
  simp [decodeCommand, Instr.cmd, Instr.addr, Instr.payload, Ne.symm h.1, Ne.symm h.2]

theorem reserved (addr cmd : Byte) (payload : List Byte) :
    Statement (.reserved addr cmd payload) := by
  intro p _ hw
  have h : p.IsReserved cmd := by simpa [Instr.cmdFits] using hw.2
  simp [decodeCommand, Instr.cmd, Instr.addr, Instr.payload, h.1, h.2.1, h.2.2]

end Sys2Proof.Laws.CommandDecodes
end

