-- ==== Sys2Proof/Tests/Slice0.lean ====
section
/-!
SUPPORT. The model's own tests. Expected values are those of spec/: the rule or vector each one comes from stands in its docstring.
The witness_ theorems show, for each obligation that has hypotheses, a concrete input that meets them together.
-/

namespace Sys2Proof.Tests

open Sys2Proof Sys2Proof.Machine

/-! ### Helpers -/

abbrev P : Params := Params.example

/-- The alternative CRC profile (30_encoding.md R86). -/
abbrev P16 : Params := { Params.example with crcProfile := .crc16 }

/-- The state after reset with one pass's answers lined up. -/
def offered (now : Nat) (bytes : List Byte) (txComplete : Bool) (sample : Option ChannelValues) : State :=
  { State.reset with
    pending := [{ now := now, clockOk := true, rx := bytes, txComplete := txComplete, sample := sample }] }

/-- What one pass writes to the line, and the outputs it leaves. -/
def passResult (s : State) : Option (List (List Byte) × ChannelValues) :=
  match step s with
  | .next t => some (txCalls t.trace, t.ch.out)
  | _ => none

def goesOn (o : Result) : Bool :=
  match o with
  | .next _ => true
  | _ => false

theorem exists_of_goesOn {o : Result} (h : goesOn o = true) : ∃ t, o = .next t := by
  cases o with
  | next t => exact ⟨t, rfl⟩
  | fault _ => cases h
  | refused _ => cases h

def isValid (p : Params) : Bool := decide (Valid p)

def isWf (s : State) : Bool := decide (Wf s)

/-- 16 equal channel values. -/
abbrev all (v : Half) : ChannelValues := Vector.replicate channelCount v

/-- Channel i holds k·i. -/
abbrev ramp (k : Nat) : ChannelValues := Vector.ofFn fun i => BitVec.ofNat 16 (k * i.val)

/-- The reset state with the receiver mid-frame. -/
def mid (phase : RxPhase) (addr cmd len k : Byte) (j : Bool) (crc : Byte) (last now : Nat) : State :=
  { State.reset with
    now := now
    rx := { State.reset.rx with
      phase := phase, addr := addr, cmd := cmd, len := len, k := k, j := j, crc := crc, lastTick := last } }

/-- The reset state with the acknowledgment of R106 pending or in flight since tick 10. -/
def sending (phase : TxPhase) (now turnaround : Nat) (txComplete : Bool) : State :=
  { State.reset with
    cfg := { P with turnaroundTicks := turnaround }
    tx := { dir := .transmit, phase := phase, buf := [0xA5, 0x05, 0x03, 0x00, 0xFF], len := 5, t0 := 10 }
    now := now
    pending := [{ now := now, clockOk := true, rx := [0xA5], txComplete := txComplete, sample := none }] }

/-! ### Well-formedness -/

/-- 30_encoding.md R80: a payload of MAX_PAYLOAD bytes fits, one more does not. -/
theorem test_wellFormed_payload_bound :
    (Instr.reserved 5 0x42 (List.replicate 64 0)).WellFormed P ∧
    ¬ (Instr.reserved 5 0x42 (List.replicate 65 0)).WellFormed P ∧
    ¬ (Instr.ping 5 (List.replicate 65 0)).WellFormed P ∧
    ¬ (Instr.readInputs 5 (List.replicate 65 0)).WellFormed P ∧
    ¬ (Instr.setOutputs 5 (List.replicate 65 0)).WellFormed P := by decide

/-- 30_encoding.md R89: a known command's code is not in the reserved range. -/
theorem test_wellFormed_reserved_code :
    (Instr.reserved 5 0x80 []).WellFormed P ∧ ¬ (Instr.reserved 5 0x01 []).WellFormed P ∧
    ¬ (Instr.reserved 5 0x02 []).WellFormed P ∧ ¬ (Instr.reserved 5 0x03 []).WellFormed P := by decide

/-- 70_reset_and_hazards.md R263: each premise refuses a configuration that breaks it. -/
theorem test_valid_premises :
    isValid P = true ∧ isValid P16 = true ∧ isValid { P with boardAddr := 0 } = true ∧ isValid { P with boardAddr := 254 } = true ∧
    isValid { P with boardAddr := 255 } = true ∧ isValid { P with boardAddr := 255, broadcastAddr := 0 } = false ∧
    isValid { P with broadcastAddr := 5 } = false ∧ isValid { P with maxPayload := 31 } = false ∧
    isValid { P with rspError := 1 } = false ∧ isValid { P with cmdSetOutputs := 2 } = false ∧
    isValid { P with errInvalidValue := 2 } = false ∧ isValid { P with samplePeriod := 0 } = false ∧
    isValid { P with interbyteTimeout := 2 ^ 32 } = false := by decide

/-- 10_state.md R40 (a)-(e): each invariant refuses a state that breaks it. -/
theorem test_wf_invariants :
    isWf State.reset = true ∧ isWf (mid .payload 5 3 2 1 false 0 0 0) = true ∧
    isWf (mid .payload 5 3 2 2 false 0 0 0) = false ∧ isWf (mid .idle 5 3 65 0 false 0 0 0) = false ∧
    isWf (mid .gotCrc 5 3 2 2 true 0 0 0) = false ∧
    isWf { State.reset with tx := { State.reset.tx with dir := .transmit } } = false ∧
    isWf { sending .drain 0 0 false with rx := (mid .gotAddress 0 0 0 0 false 0 0 0).rx } = false ∧
    isWf { State.reset with ch := { State.reset.ch with out := all 1001 } } = false := by decide

/-! ### Decode and encode -/

/-- `PING @5` and `PING @0xFF` (30_encoding.md R106), and FRAME @5, 0x01, [00] (40_frame_codec.md R140; 95 C3's request). -/
theorem test_decode_ping :
    decode P [0xA5, 0x05, 0x01, 0x00, 0xD5] = .ok (.ping 5 [], []) ∧
    decode P [0xA5, 0xFF, 0x01, 0x00, 0x3E] = .ok (.ping 0xFF [], []) ∧
    decode P16 [0xA5, 0x05, 0x01, 0x00, 0x5D, 0x14] = .ok (.ping 5 [], []) := by decide

/-- `READ_INPUTS @9` (30_encoding.md R106) with a byte after it, and FRAME @5, 0x02, [00] (41_commands.md R172). -/
theorem test_decode_readInputs :
    decode P [0xA5, 0x09, 0x02, 0x00, 0x10, 0xA5] = .ok (.readInputs 9 [], [0xA5]) ∧
    decode P [0xA5, 0x05, 0x02, 0x01, 0x00, 0x8D] = .ok (.readInputs 5 [0x00], []) := by decide

/-- The 36-byte frame of 95 C9, d[i] = 50·i. -/
def setOutputsFrame : List Byte :=
  [0xA5, 0x05, 0x03, 0x20, 0x00, 0x00, 0x32, 0x00, 0x64, 0x00, 0x96, 0x00, 0xC8, 0x00, 0xFA, 0x00, 0x2C, 0x01,
    0x5E, 0x01, 0x90, 0x01, 0xC2, 0x01, 0xF4, 0x01, 0x26, 0x02, 0x58, 0x02, 0x8A, 0x02, 0xBC, 0x02, 0xEE, 0x02,
    0xF3]

/-- 95 C9. -/
theorem test_decode_setOutputs :
    decode P setOutputsFrame = .ok (.setOutputs 5 ((setOutputsFrame.drop 4).take 32), []) ∧
    dutyValues ((setOutputsFrame.drop 4).take 32) = ramp 50 := by decide +kernel

/-- 95 C21, C22 and C24: codes 0x42, 0x00 and 0x80. -/
theorem test_decode_reserved :
    decode P [0xA5, 0x05, 0x42, 0x00, 0xB1] = .ok (.reserved 5 0x42 [], []) ∧
    decode P [0xA5, 0x05, 0x00, 0x03, 0x01, 0x02, 0x03, 0xFF] = .ok (.reserved 5 0x00 [1, 2, 3], []) ∧
    decode P [0xA5, 0x05, 0x80, 0x00, 0x76] = .ok (.reserved 5 0x80 [], []) := by decide

/-- 30_encoding.md R103 (a), (b), (d), and a frame that is not over yet (R82). -/
theorem test_decode_errors :
    decode P [0x05, 0xA5] = .error .noStart ∧ decode P [0xA5, 0x05, 0x03, 0x41] = .error .oversize ∧
    decode P [0xA5, 0x05, 0x01, 0x00, 0xD4] = .error .badCrc ∧
    decode P [0xA5, 0x05, 0x01] = .error .truncated ∧
    decode P [0xA5, 0x05, 0x01, 0x01, 0x00] = .error .truncated := by decide

/-- 95 section 2.2: Encode under both profiles, START_BYTE not escaped (section 1.1), and EncodeFail. -/
theorem test_encode :
    encode P (.readInputs 5 []) = some [0xA5, 0x05, 0x02, 0x00, 0xEA] ∧
    encode P16 (.setOutputs 5 []) = some [0xA5, 0x05, 0x03, 0x00, 0x3F, 0x72] ∧
    encode P (.reserved 5 0x42 [0xA5]) = some [0xA5, 0x05, 0x42, 0x01, 0xA5, 0x79] ∧
    encode P (.ping 0xA5 []) = some [0xA5, 0xA5, 0x01, 0x00, 0x9D] ∧
    encode P (.reserved 5 0x42 (List.replicate 65 0)) = none := by decide

/-- The rows of spec/opcode_table.json, by their match values. -/
theorem test_tableWords :
    decodeTableWord 8 0x01 = some (.ping 5 []) ∧ decodeTableWord 8 0x02 = some (.readInputs 5 []) ∧
    decodeTableWord 8 0x03 = some (.setOutputs 5 []) ∧ decodeTableWord 8 0x00 = some (.reserved 5 0 []) := by
  decide

/-! ### One pass -/

/-- 95 C1: `PING @5` with STALE = 1. -/
theorem test_ping_answer :
    passResult (offered 1 [0xA5, 0x05, 0x01, 0x00, 0xD5] true none) =
      some ([[0xA5, 0x05, 0x01, 0x05, 0x01, 0x01, 0x00, 0x05, 0x01, 0x3F]], all 0) := by decide +kernel

/-- 95 C3: PING with a payload. -/
theorem test_ping_badLength :
    passResult (offered 1 (frameBytes P 5 0x01 [0x00]) true none) =
      some ([[0xA5, 0x05, 0x80, 0x02, 0x01, 0x01, 0x18]], all 0) := by decide +kernel

/-- 95 section 1.7: IN[i].raw = 100·i, sampled two bytes a channel, low byte first. -/
theorem test_readInputs_answer :
    passResult { offered 1 [0xA5, 0x05, 0x02, 0x00, 0xEA] true none with
      ch := { State.reset.ch with inputs := Vector.ofFn fun i => { raw := (ramp 100)[i], tick := 0 } } } =
      some ([[0xA5, 0x05, 0x02, 0x20, 0x00, 0x00, 0x64, 0x00, 0xC8, 0x00, 0x2C, 0x01, 0x90, 0x01, 0xF4, 0x01, 0x58,
        0x02, 0xBC, 0x02, 0x20, 0x03, 0x84, 0x03, 0xE8, 0x03, 0x4C, 0x04, 0xB0, 0x04, 0x14, 0x05, 0x78, 0x05, 0xDC,
        0x05, 0x02]], all 0) := by decide +kernel

/-- 95 C7: READ_INPUTS with a payload. -/
theorem test_readInputs_badLength :
    passResult (offered 1 [0xA5, 0x05, 0x02, 0x01, 0x00, 0x8D] true none) =
      some ([[0xA5, 0x05, 0x80, 0x02, 0x01, 0x02, 0x11]], all 0) := by decide +kernel

/-- 95 C9. -/
theorem test_setOutputs_stores :
    passResult (offered 1 setOutputsFrame true none) =
      some ([[0xA5, 0x05, 0x03, 0x00, 0xFF]], ramp 50) := by decide +kernel

/-- 95 C13: d[3] = 1001. -/
theorem test_setOutputs_invalidValue :
    passResult (offered 1 ([0xA5, 0x05, 0x03, 0x20, 0, 0, 0, 0, 0, 0, 0xE9, 0x03] ++ List.replicate 24 0 ++ [0xFA])
      true none) = some ([[0xA5, 0x05, 0x80, 0x02, 0x03, 0x03, 0x3C]], all 0) := by decide +kernel

/-- 95 C22: LENGTH and PAYLOAD are not examined. -/
theorem test_reserved_answer :
    passResult (offered 1 [0xA5, 0x05, 0x00, 0x03, 0x01, 0x02, 0x03, 0xFF] true none) =
      some ([[0xA5, 0x05, 0x80, 0x02, 0x02, 0x00, 0x20]], all 0) := by decide +kernel

/-- 41_commands.md R162: nothing is sent for a broadcast reserved command, and 95 C18 stores its values unanswered. -/
theorem test_broadcast_silent :
    passResult (offered 1 (frameBytes P 0xFF 0x42 []
      ++ ([0xA5, 0xFF, 0x03, 0x20] ++ (List.replicate 16 [0xE8, 0x03]).flatten ++ [0x62])) true none) =
      some ([], all 1000) := by decide +kernel

/-- 95 V20 and V21: the timeout across a wrap of the tick counter. -/
theorem test_timeout_across_wrap :
    ((mid .payload 5 3 2 0 false 0 0xFFFFFFFE 3).rxByte 0).2.rx.k = 1 ∧
    ((mid .payload 5 3 2 0 false 0 0xFFFFFFFE 9).rxByte 0).2.trace =
      [.dir .receive, .rx (.error .timeout)] := by decide

/-- 95 L20: the turnaround across a wrap. -/
theorem test_turnaround_across_wrap :
    goesOn (transmitStep false { sending .turnaround 2 3 false with
      tx := { (sending .turnaround 2 3 false).tx with t0 := 0xFFFFFFFF } }) = true ∧
    elapsed 32 2 0xFFFFFFFF = 3 := by decide

/-- 95 L2 and 42_control_loop.md R201: IN[15] = 1500 with the pass's tick. -/
theorem test_sample_success :
    (sampleStep (some (ramp 100)) { State.reset with now := 200 }).ch.inputs[15] = { raw := 1500, tick := 200 } ∧
    (sampleStep (some (ramp 100)) { State.reset with now := 200 }).ch.stale = false := by decide

/-! ### Witnesses: encoding -/

theorem witness_decodeEncodeAgree :
    CommandCodesDistinct P ∧ (Instr.reserved 5 0x42 (List.replicate 64 0)).WellFormed P ∧
    encode P (.reserved 5 0x42 (List.replicate 64 0))
      = some ([0xA5, 0x05, 0x42, 0x40] ++ List.replicate 64 0 ++ [0x75]) := by decide +kernel

theorem witness_decodedBytesAreTheEncoding :
    decode P [0xA5, 0x05, 0x01, 0x00, 0xD5, 0x07] = .ok (.ping 5 [], [0x07]) := by decide

theorem witness_encodeFailsOnlyWhenTooLong :
    encodeFrame P 5 0x42 (List.replicate 64 0)
      = some ([0xA5, 0x05, 0x42, 0x40] ++ List.replicate 64 0 ++ [0x75]) ∧
    P.maxPayload.toNat < (List.replicate 65 (0 : Byte)).length := by decide +kernel

theorem witness_commandByteSelectsOneRule :
    CommandCodesDistinct P ∧ P.cmdPing = 1 ∧ P.cmdReadInputs = 2 ∧ P.cmdSetOutputs = 3 ∧
    ((0x04 : Byte) ≠ P.cmdPing ∧ (0x04 : Byte) ≠ P.cmdReadInputs ∧ (0x04 : Byte) ≠ P.cmdSetOutputs) := by
  decide

theorem witness_crcTellsOneByteApart : (0x00 : Byte) ≠ 0xFF := by decide

theorem witness_channelLayoutLosesNoBit : (List.replicate 32 (0xFF : Byte)).length = 32 := by decide

theorem witness_elapsedMeasuresAcrossWrap : 0xFFFFFFFF < 2 ^ 32 ∧ 0 < 2 ^ 32 := by decide

/-! ### Witnesses: commands -/

theorem valid_P : Valid P := of_decide_eq_true (by decide : isValid P = true)

/-- A configuration of 41_commands.md R162's unassigned board. -/
abbrev P255 : Params := { Params.example with boardAddr := 255 }

theorem valid_P255 : Valid P255 := of_decide_eq_true (by decide : isValid P255 = true)

theorem wf_reset : Wf State.reset := of_decide_eq_true (by decide : isWf State.reset = true)

/-- Both address clauses of the command statements, and both payload clauses of PING and READ_INPUTS. -/
theorem witness_command_clauses :
    Valid State.reset.cfg ∧ (5 : Byte) = State.reset.cfg.boardAddr ∧ (5 : Byte) ≠ State.reset.cfg.broadcastAddr ∧
    (0xFF : Byte) = State.reset.cfg.broadcastAddr ∧ ([0x00] : List Byte) ≠ [] :=
  ⟨valid_P, by decide, by decide, by decide, by decide⟩

theorem witness_pingAnswers :
    Valid State.reset.cfg ∧ (5 : Byte) = State.reset.cfg.boardAddr ∧ (5 : Byte) ≠ State.reset.cfg.broadcastAddr ∧
    goesOn (exec (.ping 5 []) State.reset) = true := ⟨valid_P, by decide, by decide, by decide⟩

theorem witness_readInputsAnswers :
    Valid State.reset.cfg ∧ (5 : Byte) = State.reset.cfg.boardAddr ∧ (5 : Byte) ≠ State.reset.cfg.broadcastAddr ∧
    goesOn (exec (.readInputs 5 []) State.reset) = true := ⟨valid_P, by decide, by decide, by decide⟩

/-- d[i] = MAX_DUTY is in range (41_commands.md R175). -/
theorem witness_setOutputsStoresAndAcknowledges :
    Valid State.reset.cfg ∧ (∀ i : Fin channelCount, (all 1000)[i] ≤ State.reset.cfg.maxDuty) ∧
    (5 : Byte) = State.reset.cfg.boardAddr ∧ (5 : Byte) ≠ State.reset.cfg.broadcastAddr ∧
    (0xFF : Byte) = State.reset.cfg.broadcastAddr := ⟨valid_P, by decide, by decide, by decide, by decide⟩

/-- LENGTH 31 and 33, and d[15] = MAX_DUTY + 1 (41_commands.md R176, R177). -/
theorem witness_setOutputsRejects :
    Valid State.reset.cfg ∧ (List.replicate 31 (0 : Byte)).length ≠ 32 ∧ (List.replicate 33 (0 : Byte)).length ≠ 32 ∧
    (List.replicate 30 (0 : Byte) ++ [0xE9, 0x03]).length = 32 ∧
    (∃ i : Fin channelCount, State.reset.cfg.maxDuty <
      u16 ((List.replicate 30 (0 : Byte) ++ [0xE9, 0x03]).getD (2 * i.val) 0)
        ((List.replicate 30 (0 : Byte) ++ [0xE9, 0x03]).getD (2 * i.val + 1) 0)) ∧
    (5 : Byte) = State.reset.cfg.boardAddr ∧ (5 : Byte) ≠ State.reset.cfg.broadcastAddr ∧
    (0xFF : Byte) = State.reset.cfg.broadcastAddr :=
  ⟨valid_P, by decide, by decide, by decide, by decide, by decide, by decide, by decide⟩

theorem witness_reservedCommandAnswersUnknown :
    Valid State.reset.cfg ∧ (5 : Byte) = State.reset.cfg.boardAddr ∧ (5 : Byte) ≠ State.reset.cfg.broadcastAddr ∧
    (0xFF : Byte) = State.reset.cfg.broadcastAddr ∧ goesOn (exec (.reserved 5 0x42 []) State.reset) = true :=
  ⟨valid_P, by decide, by decide, by decide, by decide⟩

theorem witness_otherBoardsCommandHasNoEffect :
    (Instr.setOutputs 9 []).addr ≠ State.reset.cfg.boardAddr ∧
    (Instr.setOutputs 9 []).addr ≠ State.reset.cfg.broadcastAddr := by decide

/-- Each clause: a command that is not SET_OUTPUTS, one to the broadcast address, one to another board. -/
theorem witness_commandsLeaveTheRestUnchanged :
    (∃ t, exec (.ping 5 []) State.reset = .next t) ∧ (∀ addr payload, Instr.ping 5 [] ≠ .setOutputs addr payload) ∧
    (∃ t, exec (.setOutputs 0xFF (valuesPayload (all 7))) State.reset = .next t) ∧
    (Instr.setOutputs 0xFF []).addr = State.reset.cfg.broadcastAddr ∧
    (∃ t, exec (.readInputs 9 []) State.reset = .next t) ∧
    (Instr.readInputs 9 []).addr ≠ State.reset.cfg.boardAddr :=
  ⟨⟨_, rfl⟩, nofun, ⟨_, rfl⟩, by decide, ⟨_, rfl⟩, by decide⟩

/-- The first frame at reset, the second in the state after the first's acknowledgment (95 section 1.5). -/
theorem witness_setOutputsIsIdempotent :
    Valid State.reset.cfg ∧ State.reset.cfg.boardAddr ≠ State.reset.cfg.broadcastAddr ∧
    (∀ i : Fin channelCount, (all 500)[i] ≤ State.reset.cfg.maxDuty) ∧ ¬ State.reset.Dropping ∧
    State.reset.tx.dir = .receive ∧
    ∃ t, exec (.setOutputs 5 (valuesPayload (all 500))) State.reset = .next t ∧
      let v := { t.returnToReceive with responding := false }
      ¬ v.Dropping ∧ v.tx.dir = .receive ∧ v.cfg = t.cfg ∧ v.ch.out = t.ch.out :=
  ⟨valid_P, by decide, by decide, by decide, rfl, _, rfl, by rintro (h | h) <;> exact absurd h (by decide), rfl,
    rfl, rfl⟩

/-- A rejected SET_OUTPUTS, then a valid one, at once and with the line free again. -/
theorem witness_rejectedCommandLeavesNoTrace :
    ∃ t u v v', exec (.setOutputs 5 []) State.reset = .next t ∧ t.ch.out = State.reset.ch.out ∧
      (Instr.setOutputs 5 (valuesPayload (all 500))).addr = State.reset.cfg.boardAddr ∧
      (Instr.setOutputs 5 (valuesPayload (all 500))).addr ≠ State.reset.cfg.broadcastAddr ∧
      Valid State.reset.cfg ∧
      exec (.setOutputs 5 (valuesPayload (all 500))) State.reset = .next u ∧
      exec (.setOutputs 5 (valuesPayload (all 500))) t = .next v ∧
      (let w := { t.returnToReceive with responding := false, now := 7 }
       w.cfg = t.cfg ∧ w.ch = t.ch ∧ exec (.setOutputs 5 (valuesPayload (all 500))) w = .next v') :=
  ⟨_, _, _, _, rfl, rfl, by decide, by decide, valid_P, rfl, rfl, rfl, rfl, rfl⟩

/-- Two states that differ in OUT and in the receiver only. -/
theorem witness_answersRevealOnlyInputsAndStale :
    let s := State.reset
    let t := { mid .gotCrc 9 9 9 9 false 9 9 0 with ch := { State.reset.ch with out := all 7 } }
    s.cfg = t.cfg ∧ s.now = t.now ∧ s.tx = t.tx ∧ s.ch.stale = t.ch.stale ∧ s.ch.out ≠ t.ch.out ∧
    (∀ k : Fin channelCount, s.ch.inputs[k].raw = t.ch.inputs[k].raw) ∧
    (∃ u, exec (.ping 5 []) s = .next u) ∧ ∃ u, exec (.ping 5 []) t = .next u :=
  ⟨rfl, rfl, rfl, rfl, by decide, fun _ => rfl, ⟨_, rfl⟩, ⟨_, rfl⟩⟩

theorem witness_commandErrorEntry :
    Valid State.reset.cfg ∧ State.reset.cfg.boardAddr ≠ State.reset.cfg.broadcastAddr := ⟨valid_P, by decide⟩

/-! ### Witnesses: the receiver -/

/-- Each clause at its boundary: Idle, elapsed 10, elapsed 11 (95 V3, V17, V18). -/
theorem witness_timeoutFiresOnlyWhenExceeded :
    State.reset.clockOk = true ∧ State.reset.rx.phase = .idle ∧
    (let s := mid .gotCommand 5 0 0 0 false 0 100 110
     s.clockOk = true ∧ s.rx.phase ≠ .idle ∧
       elapsed s.cfg.tickW s.now s.rx.lastTick ≤ s.cfg.interbyteTimeout) ∧
    (let s := mid .gotCommand 5 0 0 0 false 0 100 111
     s.clockOk = true ∧ s.rx.phase ≠ .idle ∧
       s.cfg.interbyteTimeout < elapsed s.cfg.tickW s.now s.rx.lastTick) := by decide

theorem witness_headerBytesAreTakenUnchecked :
    State.reset.rx.phase = .idle ∧ (0xA5 : Byte) = State.reset.cfg.startByte ∧
    (0x00 : Byte) ≠ State.reset.cfg.startByte ∧ (mid .gotAddress 0 0 0 0 false 0 0 0).rx.phase = .gotAddress ∧
    (mid .gotCommand 0 0 0 0 false 0 0 0).rx.phase = .gotCommand := by decide

/-- LENGTH 65, 0 and 64 (95 V7, V9, V10). -/
theorem witness_lengthByteIsBounded :
    (mid .gotLength 5 3 0 0 false 0 0 0).rx.phase = .gotLength ∧ P.maxPayload < 65 ∧
    ((0 : Byte) ≤ P.maxPayload ∧ (0 : Byte) = 0) ∧ ((64 : Byte) ≤ P.maxPayload ∧ (64 : Byte) ≠ 0) := by decide

/-- The first and the last byte of a two-byte payload (95 V12, V13). -/
theorem witness_payloadByteIsStored :
    (let s := mid .payload 5 3 2 0 false 0 0 0
     s.rx.phase = .payload ∧ s.rx.k < s.rx.len ∧ s.rx.len ≤ s.cfg.maxPayload ∧
       s.rx.buf.length = s.cfg.maxPayload.toNat ∧ s.rx.k + 1 ≠ s.rx.len) ∧
    (let s := mid .payload 5 3 2 1 false 0 0 0
     s.rx.phase = .payload ∧ s.rx.k < s.rx.len ∧ s.rx.len ≤ s.cfg.maxPayload ∧
       s.rx.buf.length = s.cfg.maxPayload.toNat ∧ s.rx.k + 1 = s.rx.len) := by decide

/-- CRC8 match and mismatch; the first CRC16 byte; CRC16 match and mismatch (95 V14, V15, V22, V23, V24). -/
theorem witness_crcByteCompletesOrRejects :
    (let s := mid .gotCrc 5 1 0 0 false 0 0 0
     s.rx.phase = .gotCrc ∧ s.cfg.crcProfile = .crc8 ∧
       [0xD5] = crcField s.cfg ([s.rx.addr, s.rx.cmd, s.rx.len] ++ s.rx.buf.take s.rx.len.toNat) ∧
       [0xD4] ≠ crcField s.cfg ([s.rx.addr, s.rx.cmd, s.rx.len] ++ s.rx.buf.take s.rx.len.toNat)) ∧
    (let s := { mid .gotCrc 5 1 0 0 false 0 0 0 with cfg := P16 }
     s.rx.phase = .gotCrc ∧ s.cfg.crcProfile = .crc16 ∧ s.rx.j = false) ∧
    (let s := { mid .gotCrc 5 1 0 0 true 0x5D 0 0 with cfg := P16 }
     s.rx.phase = .gotCrc ∧ s.cfg.crcProfile = .crc16 ∧ s.rx.j = true ∧
       [s.rx.crc, 0x14] = crcField s.cfg ([s.rx.addr, s.rx.cmd, s.rx.len] ++ s.rx.buf.take s.rx.len.toNat) ∧
       [s.rx.crc, 0x15] ≠ crcField s.cfg ([s.rx.addr, s.rx.cmd, s.rx.len] ++ s.rx.buf.take s.rx.len.toNat)) := by
  decide

/-- A frame's last byte, and a timeout before a byte that is no START_BYTE. -/
theorem witness_onlyEventsEndAFrame :
    (let s := mid .gotCrc 5 1 0 0 false 0 100 100
     s.rx.phase ≠ .idle ∧ (s.rxByte 0xD5).2.rx.phase = .idle) ∧
    (let s := mid .gotCommand 5 0 0 0 false 0 100 111
     s.rx.phase ≠ .idle ∧ (s.rxByte 0x01).2.rx.phase = .idle) := by decide

theorem ready_reset : ReadyForFrame State.reset := ⟨rfl, rfl, rfl⟩

/-- Gaps of exactly INTERBYTE_TIMEOUT, one of them across the wrap. -/
theorem witness_receiverRoundTrip :
    ReadyForFrame State.reset ∧
    encodeFrame State.reset.cfg 5 1 [] = some [0xA5, 0x05, 0x01, 0x00, 0xD5] ∧
    [0xFFFFFFF8, 2, 12, 22, 32].length = [0xA5, 0x05, 0x01, 0x00, 0xD5].length ∧
    NoLongGap State.reset.cfg [0xFFFFFFF8, 2, 12, 22, 32] :=
  ⟨ready_reset, by decide, rfl, by decide, by decide, by decide, by decide, trivial⟩

/-- The ADDRESS, the COMMAND and the (only) PAYLOAD byte, lowest and highest bit of each. -/
theorem witness_singleBitFlipIsRejected :
    ReadyForFrame State.reset ∧
    encodeFrame State.reset.cfg 5 0x42 [0xA5] = some [0xA5, 0x05, 0x42, 0x01, 0xA5, 0x79] ∧
    [0, 1, 2, 3, 4, 5].length = [0xA5, 0x05, 0x42, 0x01, 0xA5, 0x79].length ∧
    NoLongGap State.reset.cfg [0, 1, 2, 3, 4, 5] ∧
    (∀ k ∈ [1, 2, 4], k = 1 ∨ k = 2 ∨ 4 ≤ k ∧ k < 4 + ([0xA5] : List Byte).length) ∧
    (∀ k ∈ [1, 2, 4], ∀ bit ∈ [0, 7], bit < 8 ∧
      (feed ([0, 1, 2, 3, 4, 5].zip (flipBit k bit [0xA5, 0x05, 0x42, 0x01, 0xA5, 0x79])) State.reset).2.trace =
        [.dir .receive, .rx (.error .crc)]) :=
  ⟨ready_reset, by decide, rfl, ⟨by decide, by decide, by decide, by decide, by decide, trivial⟩, by decide,
    by decide +kernel⟩

/-! ### Witnesses: the drain -/

theorem readyToDrain_reset : ReadyToDrain State.reset :=
  { idle := rfl, buffer := rfl, clock := rfl, lineFree := rfl, noResponse := rfl, tick := by decide }

theorem witness_noiseIsSkipped :
    ReadyToDrain State.reset ∧ State.reset.cfg.startByte ∉ ([0x00, 0x11] : List Byte) ∧
    ([0x00, 0x11] : List Byte) ≠ [] := ⟨readyToDrain_reset, by decide, by decide⟩

theorem witness_heldLineDropsBytes :
    (sending .drain 0 0 false).tx.phase ≠ .idle ∧ { State.reset with responding := true }.responding = true := by
  decide

theorem witness_drainRunsFrameBeforeNextByte :
    ReadyToDrain State.reset ∧
    decode State.reset.cfg [0xA5, 0x05, 0x01, 0x00, 0xD5, 0xA5] = .ok (.ping 5 [], [0xA5]) :=
  ⟨readyToDrain_reset, by decide⟩

theorem witness_stepRunsDecodedFrame :
    let s := offered 1 [0xA5, 0x05, 0x01, 0x00, 0xD5] true none
    Valid s.cfg ∧ Wf s ∧ s.rx.phase = .idle ∧ s.tx.phase = .idle ∧ s.nextInput.clockOk = true ∧
    decode s.cfg s.nextInput.rx = .ok (.ping 5 [], []) := ⟨valid_P, wf_reset, rfl, rfl, rfl, by decide⟩

theorem witness_addressMismatchRecordsFrameOkOnly :
    ReadyToDrain State.reset ∧
    decode State.reset.cfg [0xA5, 0x09, 0x02, 0x00, 0x10] = .ok (.readInputs 9 [], []) ∧
    (Instr.readInputs 9 []).addr ≠ State.reset.cfg.boardAddr ∧
    (Instr.readInputs 9 []).addr ≠ State.reset.cfg.broadcastAddr :=
  ⟨readyToDrain_reset, by decide, by decide, by decide⟩

/-- 95 section 1.2: `BAD_CRC PING @5`. -/
theorem witness_badCrcFrameIsDiscarded :
    ReadyToDrain State.reset ∧
    ([0xD4] : List Byte).length = (0 : Byte).toNat + State.reset.cfg.crcProfile.bytes ∧
    decode State.reset.cfg [State.reset.cfg.startByte, 0x05, 0x01, 0x00, 0xD4] = .error .badCrc :=
  ⟨readyToDrain_reset, by decide, by decide⟩

theorem witness_oversizeResynchronises :
    ReadyToDrain State.reset ∧ State.reset.cfg.maxPayload < 0x41 := ⟨readyToDrain_reset, by decide⟩

/-- The prefix `A5 05 01` held since tick 100, with one pass's answers lined up and a frame for the pass after it. -/
def prefixHeld (now : Nat) : State :=
  { mid .gotLength 5 1 0 0 false 0 100 100 with
    pending := [{ now := now, clockOk := true, rx := [], txComplete := true, sample := none },
      { now := now + 1, clockOk := true, rx := [0xA5, 0x05, 0x01, 0x00, 0xD5], txComplete := true, sample := none }] }

/-- Each clause: 95 V19 (elapsed 11, then a new frame); L18 (a pass at elapsed 10); L17 (a pass without bytes at elapsed 11), and the
frame in the pass after it (95 section 1.6 (a)). -/
theorem witness_timeoutRecoversForTheNextFrame :
    (let s := mid .gotCommand 5 0 0 0 false 0 100 111
     s.rx.phase ≠ .idle ∧ s.clockOk = true ∧ s.rx.buf.length = s.cfg.maxPayload.toNat ∧ s.tx.phase = .idle ∧
     s.responding = false ∧ s.now < 2 ^ s.cfg.tickW ∧
     s.cfg.interbyteTimeout < elapsed s.cfg.tickW s.now s.rx.lastTick ∧
     decode s.cfg [0xA5, 0x05, 0x01, 0x00, 0xD5] = .ok (.ping 5 [], [])) ∧
    ((∃ t, step (prefixHeld 110) = .next t) ∧ (prefixHeld 110).nextInput.clockOk = true) ∧
    (let s := prefixHeld 111
     Valid s.cfg ∧ Wf s ∧ s.rx.phase ≠ .idle ∧ s.tx.phase = .idle ∧ s.nextInput.clockOk = true ∧
     s.nextInput.rx = [] ∧
     s.cfg.interbyteTimeout < elapsed s.cfg.tickW (s.nextInput.now % 2 ^ s.cfg.tickW) s.rx.lastTick ∧
     (match step s with
      | .next t => t.nextInput.clockOk && decide (decode s.cfg t.nextInput.rx = .ok (.ping 5 [], []))
      | _ => false) = true) :=
  ⟨by decide, ⟨exists_of_goesOn (by decide +kernel), rfl⟩, valid_P,
    of_decide_eq_true (by decide : isWf (prefixHeld 111) = true), by decide, rfl, rfl, rfl, by decide,
    by decide +kernel⟩

/-- 95 L17 and L18: the sweep fires at elapsed 11, as the last event of its pass, and not at elapsed 10. -/
theorem test_sweep :
    (match step (prefixHeld 111) with
     | .next t => decide (t.rx.phase = .idle ∧
         t.trace = [.dir .receive, .sample false, .outputs (all 0), .rx (.error .timeout)])
     | _ => false) = true ∧
    (match step (prefixHeld 110) with
     | .next t => decide (t.rx.phase = .gotLength ∧ t.trace = [.dir .receive, .sample false, .outputs (all 0)])
     | _ => false) = true := by decide +kernel

/-! ### Witnesses: the rest of the pass -/

/-- Every clause, at elapsed 2 and 3 of a turnaround of 3 (95 L9-L12). -/
theorem witness_transmitStepRule :
    (State.reset.clockOk = true ∧ State.reset.tx.phase = .idle) ∧
    (let s := sending .turnaround 12 3 false
     s.clockOk = true ∧ s.tx.phase = .turnaround ∧
       elapsed s.cfg.tickW s.now s.tx.t0 < s.cfg.turnaroundTicks) ∧
    (let s := sending .turnaround 13 3 false
     s.clockOk = true ∧ s.tx.phase = .turnaround ∧
       s.cfg.turnaroundTicks ≤ elapsed s.cfg.tickW s.now s.tx.t0 ∧ s.tx.dir = .transmit) ∧
    (let s := { sending .turnaround 13 3 false with
       tx := { (sending .turnaround 13 3 false).tx with dir := .receive } }
     s.clockOk = true ∧ s.tx.phase = .turnaround ∧
       s.cfg.turnaroundTicks ≤ elapsed s.cfg.tickW s.now s.tx.t0 ∧ s.tx.dir = .receive) ∧
    ((sending .drain 13 3 false).clockOk = true ∧ (sending .drain 13 3 false).tx.phase = .drain) := by decide

/-- Not due at elapsed 99, due at elapsed 100 and before the first sample (95 L1-L4). -/
theorem witness_sampleStepRule :
    let s := { State.reset with ch := { State.reset.ch with cadPrimed := true }, now := 99 }
    s.clockOk = true ∧
    ¬ (s.ch.cadPrimed = false ∨ s.cfg.samplePeriod ≤ elapsed s.cfg.tickW s.now s.ch.lastCad) ∧
    (State.reset.clockOk = true ∧ (State.reset.ch.cadPrimed = false ∨
      State.reset.cfg.samplePeriod ≤ elapsed State.reset.cfg.tickW State.reset.now State.reset.ch.lastCad)) ∧
    s.cfg.samplePeriod ≤ elapsed s.cfg.tickW 100 s.ch.lastCad := by decide

theorem witness_pwmRefreshRule :
    (let c := { State.reset.ch with appliedValid := true }
     c.appliedValid = true ∧ c.out = c.applied) ∧
    State.reset.ch.appliedValid = false ∧
    (let c := { State.reset.ch with appliedValid := true, out := all 1 }
     c.out ≠ c.applied) := by decide

/-! ### Witnesses: the pass -/

theorem witness_everyPassGoesOn : Valid State.reset.cfg ∧ Wf State.reset := ⟨valid_P, wf_reset⟩

/-- A pass with no bytes, one with a frame that is answered. -/
theorem witness_passKeepsInvariants :
    (∃ t, step (offered 1 [] true none) = .next t) ∧
    ∃ t, step (offered 1 [0xA5, 0x05, 0x01, 0x00, 0xD5] true none) = .next t :=
  ⟨exists_of_goesOn (by decide +kernel), exists_of_goesOn (by decide +kernel)⟩

theorem witness_resetMeetsInvariants : Valid P ∧ Valid P255 := ⟨valid_P, valid_P255⟩

theorem agrees_offered (n : Nat) (bytes : List Byte) (c : Bool) (v : Option ChannelValues) :
    ObservationAgrees (offered n bytes c v) := ⟨rfl, rfl, rfl, rfl⟩

theorem witness_passKeepsObservation :
    let s := offered 1 [0xA5, 0x05, 0x01, 0x00, 0xD5] true none
    ObservationAgrees s ∧ ∃ t, step s = .next t :=
  ⟨agrees_offered _ _ _ _, exists_of_goesOn (by decide +kernel)⟩

theorem witness_passSendsOwnFrames :
    let s := offered 1 [0xA5, 0x05, 0x01, 0x00, 0xD5] true none
    SendsOwnFrames s ∧ ∃ t, step s = .next t :=
  ⟨⟨by simp [offered, State.reset, State.resetWith], by simp [offered, State.reset, State.resetWith]⟩,
    exists_of_goesOn (by decide +kernel)⟩

theorem witness_configurationIsNeverWritten :
    ∃ t, step (offered 1 [0xA5, 0xFF, 0x42, 0x00] true none) = .next t := exists_of_goesOn (by decide +kernel)

/-- A pass that completes no frame. -/
theorem witness_onlyFramesChangeOutputsOrAnswer :
    ∃ t events, step (offered 1 [0xA5, 0x05] true none) = .next t ∧
      t.trace = (offered 1 [0xA5, 0x05] true none).trace ++ events ∧ .rx .frameOk ∉ events := by
  obtain ⟨t, ht⟩ := exists_of_goesOn (o := step (offered 1 [0xA5, 0x05] true none)) (by decide +kernel)
  have h : (match step (offered 1 [0xA5, 0x05] true none) with
      | .next t => decide (t.trace = [.dir .receive, .sample false, .outputs (all 0)])
      | _ => false) = true := by decide +kernel
  rw [ht] at h
  exact ⟨t, [.sample false, .outputs (all 0)], ht, of_decide_eq_true h, by decide⟩

/-- An idle line and a busy one. -/
theorem witness_atMostOneResponseAPass :
    (∃ t, step (offered 1 [0xA5, 0x05, 0x01, 0x00, 0xD5] true none) = .next t) ∧
    (sending .turnaround 11 3 false).tx.phase ≠ .idle ∧
    ∃ t, step (sending .turnaround 11 3 false) = .next t :=
  ⟨exists_of_goesOn (by decide +kernel), by decide, exists_of_goesOn (by decide +kernel)⟩

theorem witness_responseInFlightIsUndisturbed :
    (sending .turnaround 11 3 false).tx.phase ≠ .idle ∧
    ∃ t, step (sending .turnaround 11 3 false) = .next t := ⟨by decide, exists_of_goesOn (by decide +kernel)⟩

theorem witness_noEarlyRelease :
    (sending .drain 20 3 false).tx.phase ≠ .idle ∧ (sending .drain 20 3 false).nextInput.txComplete = false ∧
    ∃ t, step (sending .drain 20 3 false) = .next t := ⟨by decide, rfl, exists_of_goesOn (by decide +kernel)⟩

/-- 95 L10: TA = 3, started at 10, now 13. -/
theorem witness_dueResponseIsSentInOnePass :
    let s := sending .turnaround 13 3 true
    Valid s.cfg ∧ Wf s ∧ s.tx.phase = .turnaround ∧ s.nextInput.clockOk = true ∧ s.nextInput.txComplete = true ∧
    s.cfg.turnaroundTicks ≤ elapsed s.cfg.tickW (s.nextInput.now % 2 ^ s.cfg.tickW) s.tx.t0 :=
  ⟨of_decide_eq_true (by decide : isValid (sending .turnaround 13 3 true).cfg = true),
    of_decide_eq_true (by decide : isWf (sending .turnaround 13 3 true) = true), rfl, rfl, rfl, by decide⟩

theorem witness_everyPassAppliesOutputs :
    ∃ t, step (offered 1 setOutputsFrame true none) = .next t := exists_of_goesOn (by decide +kernel)

theorem witness_inputsChangeAsOneSample :
    ∃ t, step (offered 1 [] true (some (ramp 100))) = .next t := exists_of_goesOn (by decide +kernel)

/-- Both clauses: due before the first sample; not due at elapsed 99 after one. -/
theorem witness_samplingIgnoresBusTraffic :
    (let s := offered 1 [] true none
     (∃ t, step s = .next t) ∧ s.nextInput.clockOk = true ∧ s.ch.cadPrimed = false) ∧
    (let s := { offered 99 [0xA5] true none with ch := { State.reset.ch with cadPrimed := true } }
     (∃ t, step s = .next t) ∧ s.nextInput.clockOk = true ∧ s.ch.cadPrimed = true ∧
       elapsed s.cfg.tickW (s.nextInput.now % 2 ^ s.cfg.tickW) s.ch.lastCad < s.cfg.samplePeriod) :=
  ⟨⟨exists_of_goesOn (by decide +kernel), rfl, rfl⟩, exists_of_goesOn (by decide +kernel), rfl, rfl, by decide⟩

/-- 41_commands.md R162's unassigned board, with a broadcast frame. -/
theorem witness_unassignedBoardNeverAnswers :
    let s := { State.resetWith P255 with pending := [passAt P255 1 [.ping 255] true none] }
    (∃ t, step s = .next t) ∧ s.cfg.boardAddr = s.cfg.broadcastAddr ∧ s.tx.phase = .idle :=
  ⟨exists_of_goesOn (by decide +kernel), rfl, rfl⟩

theorem witness_noMeaningOutsidePremises :
    ¬ Valid { State.reset with cfg := { P with maxPayload := 31 } }.cfg ∧
    (Valid { State.reset with tx := { State.reset.tx with dir := .transmit } }.cfg ∧
      ¬ Wf { State.reset with tx := { State.reset.tx with dir := .transmit } }) :=
  ⟨of_decide_eq_false (by decide : isValid { P with maxPayload := 31 } = false), valid_P,
    of_decide_eq_false
      (by decide : isWf { State.reset with tx := { State.reset.tx with dir := .transmit } } = false)⟩

theorem witness_firstPassSamplesAndApplies :
    Valid P ∧ (passAt P 0 [] true none).rx = [] := ⟨valid_P, rfl⟩

end Sys2Proof.Tests
end

section
/-! PROOFS. Ticks (00_scope.md R13): a distance read off the free-running counter. -/
namespace Sys2Proof.Machine

/-- The wrap of the reading cancels: the distance may lie on either side of `2 ^ w`, and only its class modulo `2 ^ w` is
read back. -/
theorem elapsed_add_mod {w t : Nat} (ht : t ≤ 2 ^ w) (d : Nat) :
    elapsed w ((t + d) % 2 ^ w) t = d % 2 ^ w :=
  calc ((t + d) % 2 ^ w + (2 ^ w - t)) % 2 ^ w
      = (t + d + (2 ^ w - t)) % 2 ^ w := Nat.mod_add_mod ..
    _ = (d + 2 ^ w) % 2 ^ w := by rw [show t + d + (2 ^ w - t) = d + 2 ^ w by omega]
    _ = d % 2 ^ w := Nat.add_mod_right ..

/-- Settles O10: the distance read back modulo `2 ^ w` is the distance itself, being below `2 ^ w`. -/
theorem elapsedMeasuresAcrossWrap : Obligations.ElapsedMeasuresAcrossWrap := by
  intro w t d ht hd
  have hdist : elapsed w ((t + d) % 2 ^ w) t = d := by
    rw [elapsed_add_mod ht.le, Nat.mod_eq_of_lt hd]
  exact ⟨hdist, fun now => elapsed_lt w now t⟩

end Sys2Proof.Machine
end

section
/-! PROOFS. The state over one pass: what a started response and a pass leave unchanged, the invariants of 10_state.md R40, the
agreement with the observation (R45), and the reset values (R47). -/
namespace Sys2Proof.Machine

/-! ### What a response leaves unchanged (42_control_loop.md R196) -/

section
variable (rc : Byte) (rp : List Byte) (s : State)

/-- A response writes transmitter registers, `responding` and the observation, and nothing else. -/
theorem respond_shape : ∃ tx trace,
    s.respond rc rp = { s with tx := tx, responding := true, trace := trace } := by
  rcases respond_cases rc rp s with e | ⟨-, e⟩
  · exact ⟨_, _, e⟩
  · exact ⟨_, _, e⟩

@[simp] theorem respond_cfg : (s.respond rc rp).cfg = s.cfg := by
  obtain ⟨_, _, e⟩ := respond_shape rc rp s; rw [e]
@[simp] theorem respond_ch : (s.respond rc rp).ch = s.ch := by
  obtain ⟨_, _, e⟩ := respond_shape rc rp s; rw [e]

end

/-- No command's own effect reaches the receiver. -/
theorem commandOf_rx (i : Instr) (s : State) : (commandOf i s).state.rx = s.rx := by
  rcases commandOf_state i s with e | ⟨_, _, -, -, -, e⟩ <;> rw [e]
  exact State.storeOutputs_rx _ _

/-- What the dispatcher does to the channels is the command's own effect, or nothing. -/
theorem dispatch_ch (s : State) (addr : Byte) (command : State → Answer) :
    (s.dispatch addr command).ch = s.ch ∨ (s.dispatch addr command).ch = (command s).state.ch := by
  rcases dispatch_cases s addr command with e | e | e
  · exact .inl (by rw [e])
  · exact .inr (by rw [e])
  · exact .inr (by rw [e, respond_ch])

theorem txPhase_of_not_dropping {s : State} (h : ¬ s.Dropping) : s.tx.phase = .idle := by
  by_contra hbusy
  exact h (.inl hbusy)

/-! ### One induction for a whole pass -/

/-- `P` survives each of the parts a pass is made of (42_control_loop.md R190). -/
structure KeptByParts (P : State → Prop) : Prop where
  begins : ∀ {s}, P s → P s.beginPass
  byte : ∀ {b s t}, P s → drainByte b s = .next t → P t
  turnaround : ∀ {s t}, P s → turnaroundStep s = .next t → P t
  finish : ∀ {s} (complete : Bool), P s → P (drainStep complete s)
  sample : ∀ {s} (result : Option ChannelValues), P s → P (sampleStep result s)
  refresh : ∀ {s}, P s → P (pwmRefresh s)
  sweep : ∀ {s : State}, P s → P s.timeoutCheck

theorem KeptByParts.transmitStep {P : State → Prop} (k : KeptByParts P) {complete : Bool} {s t : State}
    (hs : P s) (h : transmitStep complete s = .next t) : P t := by
  obtain ⟨u, hu, h⟩ := andThen_eq_next.mp h
  cases h
  exact k.finish complete (k.turnaround hs hu)

/-- What every part keeps, a pass keeps. -/
theorem KeptByParts.step {P : State → Prop} (k : KeptByParts P) {s t : State} (hs : P s)
    (h : step s = .next t) : P t := by
  obtain ⟨-, -, h⟩ := step_eq_next.mp h
  obtain ⟨u, v, hu, hv, rfl⟩ := pass_eq_next.mp h
  have drained : P u := drain_induct (fun _ _ _ => k.byte) (k.begins hs) hu
  exact k.sweep (k.refresh (k.sample _ (k.transmitStep drained hv)))

/-! ### The configuration (10_state.md R21) -/

theorem drainByte_cfg {b : Byte} {s t : State} (h : drainByte b s = .next t) : t.cfg = s.cfg := by
  rcases drainByte_shape h with ⟨_, _, _, rfl, -⟩ | ⟨-, _, _, _, _, -, rfl⟩ |
    ⟨-, -, _, _, _, _, _, _, -, rfl⟩
  · rfl
  · rfl
  · rw [respond_cfg]

theorem turnaroundStep_cfg {s t : State} (h : turnaroundStep s = .next t) : t.cfg = s.cfg := by
  rcases turnaroundStep_cases h with e | ⟨-, -, e⟩ <;> rw [e]

@[simp] theorem drainStep_cfg (complete : Bool) (s : State) : (drainStep complete s).cfg = s.cfg := by
  rcases drainStep_cases complete s with e | ⟨-, -, e⟩ <;> rw [e]

@[simp] theorem takeSample_cfg (result : Option ChannelValues) (s : State) :
    (s.takeSample result).cfg = s.cfg := by
  cases result with
  | none => rw [takeSample_none]
  | some v => rw [takeSample_some]

@[simp] theorem sampleStep_cfg (result : Option ChannelValues) (s : State) :
    (sampleStep result s).cfg = s.cfg := by
  rcases sampleStep_cases result s with ⟨_, e⟩ | ⟨_, e⟩
  · rw [e]
  · rw [e, takeSample_cfg]

@[simp] theorem pwmRefresh_cfg (s : State) : (pwmRefresh s).cfg = s.cfg := by
  rcases pwmRefresh_cases s with ⟨-, -, e⟩ | e <;> rw [e]

@[simp] theorem timeoutCheck_cfg (s : State) : s.timeoutCheck.cfg = s.cfg := by
  obtain ⟨_, _, _, e, -⟩ := timeoutCheck_shape s; rw [e]

theorem cfg_keptByParts (p : Params) : KeptByParts fun s => s.cfg = p where
  begins hs := hs
  byte hs h := (drainByte_cfg h).trans hs
  turnaround hs h := (turnaroundStep_cfg h).trans hs
  finish _ hs := (drainStep_cfg _ _).trans hs
  sample _ hs := (sampleStep_cfg _ _).trans hs
  refresh hs := (pwmRefresh_cfg _).trans hs
  sweep hs := (timeoutCheck_cfg _).trans hs

/-- Settles O47: no part of a pass writes the configuration. -/
theorem configurationIsNeverWritten : Obligations.ConfigurationIsNeverWritten :=
  fun s _ h => (cfg_keptByParts s.cfg).step rfl h

/-! ### The invariants of 10_state.md R40 -/

theorem timeoutCheck_receiverWf {s : State} (h : ReceiverWf s.cfg s.rx) :
    ReceiverWf s.cfg s.timeoutCheck.rx := by
  rcases timeoutCheck_cases s with ⟨e, -⟩ | ⟨-, e, -⟩
  · rwa [e]
  · rw [e]; exact h.toIdle

theorem rxByte_receiverWf {b : Byte} {s : State} (h : ReceiverWf s.cfg s.rx)
    (hnow : s.now < 2 ^ s.cfg.tickW) : ReceiverWf s.cfg (s.rxByte b).2.rx := by
  obtain ⟨_, _, _, e, -⟩ := timeoutCheck_shape s
  have checked := timeoutCheck_receiverWf h
  have touched : ReceiverWf s.timeoutCheck.touchRx.cfg s.timeoutCheck.touchRx.rx := by
    obtain ⟨hk, hlen, hj, hbuf, -⟩ := checked
    rw [State.touchRx_cfg, State.touchRx_rx, timeoutCheck_cfg]
    exact ⟨hk, hlen, hj, hbuf, by rw [e]; exact hnow⟩
  have moved := rxTransition_receiverWf (b := b) touched
  rwa [State.touchRx_cfg, timeoutCheck_cfg] at moved

/-- A receiver step that keeps the receiver's own invariants keeps them all, if it leaves a held receiver in Idle. -/
theorem Wf.receiverStep {s t : State} {es : List RxEvent} (h : Wf s) (k : ReceiverStep s t es)
    (hrx : ReceiverWf s.cfg t.rx) (hline : s.tx.phase ≠ .idle → t.rx.phase = .idle) : Wf t := by
  obtain ⟨-, htx, -, hch, hnow⟩ := h
  rw [Wf, k.cfg, k.tx, k.ch, k.now]
  exact ⟨hrx, htx, hline, hch, hnow⟩

theorem Wf.timeoutCheck {s : State} (h : Wf s) : Wf s.timeoutCheck := by
  have hrx := timeoutCheck_receiverWf h.1
  rcases timeoutCheck_cases s with ⟨e, k⟩ | ⟨-, e, k⟩
  · obtain ⟨-, -, hline, -, -⟩ := id h
    exact h.receiverStep k hrx (by rwa [e])
  · exact h.receiverStep k hrx fun _ => by rw [e]

theorem Wf.rxByte {b : Byte} {s : State} (h : Wf s) (hfree : s.tx.phase = .idle) :
    Wf (s.rxByte b).2 := by
  obtain ⟨hrx, -, -, -, hnow⟩ := id h
  obtain ⟨_, k, -⟩ := rxByte_receiverStep b s
  exact h.receiverStep k (rxByte_receiverWf hrx hnow) (absurd hfree)

theorem Wf.storeOutputs {s : State} {d : ChannelValues} (h : Wf s) (hd : ¬ OutOfRange s.cfg d) :
    Wf (s.storeOutputs d) := by
  obtain ⟨hrx, htx, hline, ⟨-, hin, hcad⟩, hnow⟩ := h
  exact ⟨hrx, htx, hline, ⟨fun i => BitVec.not_lt.mp fun hi => hd ⟨i, hi⟩, hin, hcad⟩, hnow⟩

/-- A command's own effect keeps the invariants: SET_OUTPUTS stores only values in range (41_commands.md R177). -/
theorem Wf.command_effect {s : State} (h : Wf s) (i : Instr) : Wf (commandOf i s).state := by
  rcases commandOf_state i s with e | ⟨_, _, -, -, hd, e⟩
  · rwa [e]
  · rw [e]; exact h.storeOutputs hd

/-- A response that fits its frame fits TXBUF (10_state.md R32). -/
theorem Wf.withResponse {s : State} {rp : List Byte} (h : Wf s) (hidle : s.rx.phase = .idle)
    (hfits : rp.length ≤ s.cfg.maxPayload.toNat) (rc : Byte) : Wf (s.withResponse rc rp) := by
  obtain ⟨hrx, -, -, hch, hnow⟩ := h
  have htx : TransmitterWf s.cfg (s.withResponse rc rp).tx :=
    ⟨by simp [State.withResponse], le_rfl, by
      simp only [State.withResponse, frameBytes_length]; omega, hnow⟩
  exact ⟨hrx, htx, fun _ => hidle, hch, hnow⟩

theorem Wf.respond {s : State} (h : Wf s) (hidle : s.rx.phase = .idle) (rc : Byte) (rp : List Byte) :
    Wf (s.respond rc rp) := by
  rcases respond_cases rc rp s with e | ⟨hfits, e⟩
  · rw [e]; exact h
  · rw [e]; exact h.withResponse hidle hfits rc

theorem Wf.dispatch {s : State} (h : Wf s) (hidle : s.rx.phase = .idle) (addr : Byte) (i : Instr) :
    Wf (s.dispatch addr (commandOf i)) := by
  rcases dispatch_cases s addr (commandOf i) with e | e | e
  · rwa [e]
  · rw [e]; exact h.command_effect i
  · rw [e]; exact (h.command_effect i).respond (by rwa [commandOf_rx]) _ _

theorem Wf.drainByte {b : Byte} {s t : State} (h : Wf s) (hb : drainByte b s = .next t) : Wf t := by
  rcases drainByte_cases hb with ⟨-, rfl⟩ | ⟨hfree, -, rfl⟩ | ⟨hfree, f, hf, rfl⟩
  · exact h
  · exact h.rxByte (txPhase_of_not_dropping hfree)
  · have idle := (rxByte_frame (b := b) (s := s) (by simp [hf])).1
    exact (h.rxByte (txPhase_of_not_dropping hfree)).dispatch idle _ _

theorem Wf.turnaroundStep {s t : State} (h : Wf s) (ht : turnaroundStep s = .next t) : Wf t := by
  obtain ⟨hrx, ⟨hdir, hlen, hbuf, ht0⟩, hline, hch, hnow⟩ := id h
  rcases turnaroundStep_cases ht with e | ⟨hphase, hd, e⟩
  · rw [e]; exact h
  · rw [e]
    exact ⟨hrx, ⟨by simp [hd], hlen, hbuf, ht0⟩, fun _ => hline (by simp [hphase]), hch, hnow⟩

theorem Wf.drainStep {s : State} (h : Wf s) (complete : Bool) : Wf (drainStep complete s) := by
  obtain ⟨hrx, ⟨-, -, hbuf, ht0⟩, -, hch, hnow⟩ := id h
  rcases drainStep_cases complete s with e | ⟨-, -, e⟩
  · rwa [e]
  · rw [e]
    exact ⟨hrx, ⟨by simp, Nat.zero_le _, hbuf, ht0⟩, by simp, hch, hnow⟩

theorem Wf.takeSample {s : State} (h : Wf s) (result : Option ChannelValues) :
    Wf (s.takeSample result) := by
  obtain ⟨hrx, htx, hline, ⟨hout, hin, -⟩, hnow⟩ := h
  cases result with
  | none => rw [takeSample_none]; exact ⟨hrx, htx, hline, ⟨hout, hin, hnow⟩, hnow⟩
  | some v =>
    rw [takeSample_some]
    exact ⟨hrx, htx, hline, ⟨hout, fun i => by simpa using hnow, hnow⟩, hnow⟩

theorem Wf.sampleStep {s : State} (h : Wf s) (result : Option ChannelValues) :
    Wf (sampleStep result s) := by
  rcases sampleStep_cases result s with ⟨n, e⟩ | ⟨n, e⟩
  · rw [e]; exact h
  · rw [e]; exact Wf.takeSample (s := { s with freeCount := n }) h result

theorem Wf.pwmRefresh {s : State} (h : Wf s) : Wf (pwmRefresh s) := by
  rcases pwmRefresh_cases s with ⟨-, -, e⟩ | e
  · rwa [e]
  · rw [e]; exact h

theorem Wf.beginPass {s : State} (h : Wf s) : Wf s.beginPass := by
  obtain ⟨hrx, htx, hline, hch, -⟩ := h
  exact ⟨hrx, htx, hline, hch, Nat.mod_lt _ (Nat.two_pow_pos _)⟩

theorem wf_keptByParts : KeptByParts Wf where
  begins := .beginPass
  byte := .drainByte
  turnaround := .turnaroundStep
  finish complete h := h.drainStep complete
  sample result h := h.sampleStep result
  refresh := .pwmRefresh
  sweep := .timeoutCheck

/-- Settles O43: a pass begins only within the invariants, and each of its parts keeps them. -/
theorem passKeepsInvariants : Obligations.PassKeepsInvariants := by
  intro s t h
  obtain ⟨-, hs, -⟩ := step_eq_next.mp h
  exact wf_keptByParts.step hs h

end Sys2Proof.Machine
end
section
/-! PROOFS. The observation over one pass (10_state.md R45): the registers go on saying what it says, and only frames change
OUT or start a response. -/
namespace Sys2Proof.Machine

/-! ### Reading an extended observation -/

theorem lineFrom_append (d : Direction) (es fs : List Event) :
    lineFrom d (es ++ fs) = (lineFrom d es).bind fun d' => lineFrom d' fs := by
  induction es generalizing d with
  | nil => rfl
  | cons e es ih =>
    cases e with
    | dir d' => by_cases h : d' = d <;> simp [lineFrom, h, ih]
    | tx bs => by_cases h : d = .transmit <;> simp [lineFrom, h, ih]
    | outputs v => simp [lineFrom, ih]
    | sample ok => simp [lineFrom, ih]
    | rx ev => simp [lineFrom, ih]

/-- What is appended to an observation is read from the direction it left. -/
theorem lineAfter_append {es fs : List Event} {d : Direction} (h : lineAfter es = some d) :
    lineAfter (es ++ fs) = lineFrom d fs := by
  unfold lineAfter at h
  split at h
  · simp [lineAfter, lineFrom_append, h]
  · cases h

/-- The later `set_outputs` calls speak first. -/
theorem lastOutputs_append (es fs : List Event) :
    lastOutputs (es ++ fs) = (lastOutputs fs).or (lastOutputs es) := by
  simp [lastOutputs, List.filterMap_append, List.getLast?_append]

theorem lastSample_append (es fs : List Event) :
    lastSample (es ++ fs) = (lastSample fs).or (lastSample es) := by
  simp [lastSample, List.filterMap_append, List.getLast?_append]

/-- Receiver events say nothing of the line, the outputs or the sampling. -/
theorem lineFrom_rx (d : Direction) (es : List RxEvent) : lineFrom d (es.map Event.rx) = some d := by
  induction es with
  | nil => rfl
  | cons e es ih => exact ih

theorem lastOutputs_rx (es : List RxEvent) : lastOutputs (es.map Event.rx) = none := by
  simp [lastOutputs, List.filterMap_map]

theorem lastSample_rx (es : List RxEvent) : lastSample (es.map Event.rx) = none := by
  simp [lastSample, List.filterMap_map]

/-! ### The agreement of the registers with the observation -/

/-- Appended events that call neither `set_outputs` nor `sample_inputs` keep the agreement, if they move the line to DIR and the
registers that speak of those calls stand. -/
theorem ObservationAgrees.line_event {s t : State} {es : List Event} (h : ObservationAgrees s)
    (trace : t.trace = s.trace ++ es) (line : lineFrom s.tx.dir es = some t.tx.dir)
    (noOutputs : lastOutputs es = none) (noSample : lastSample es = none)
    (applied : t.ch.applied = s.ch.applied) (valid : t.ch.appliedValid = s.ch.appliedValid)
    (stale : t.ch.stale = s.ch.stale) (primed : t.ch.cadPrimed = s.ch.cadPrimed) :
    ObservationAgrees t where
  line := by rw [trace, lineAfter_append h.line, line]
  applied := by rw [trace, lastOutputs_append, noOutputs, Option.none_or, applied, valid, h.applied]
  stale := by rw [trace, lastSample_append, noSample, Option.none_or, stale, h.stale]
  primed := by rw [trace, lastSample_append, noSample, Option.none_or, primed, h.primed]

/-- Receiver events, receiver registers and OUT do not touch the agreement. -/
theorem ObservationAgrees.receive {s : State} (h : ObservationAgrees s) (rx : Receiver) (n : Nat)
    (es : List RxEvent) (out : ChannelValues) :
    ObservationAgrees { s with rx := rx, freeCount := n, trace := s.trace ++ es.map Event.rx,
                               ch := { s.ch with out := out } } :=
  h.line_event rfl (lineFrom_rx _ _) (lastOutputs_rx _) (lastSample_rx _) rfl rfl rfl rfl

/-- A response sets the direction only from Receive to Transmit (10_state.md R42). -/
theorem ObservationAgrees.respond {s : State} (h : ObservationAgrees s) (hd : s.tx.dir = .receive)
    (rc : Byte) (rp : List Byte) : ObservationAgrees (s.respond rc rp) := by
  rcases respond_cases rc rp s with e | ⟨-, e⟩ <;> rw [e]
  · exact ⟨h.line, h.applied, h.stale, h.primed⟩
  · exact h.line_event rfl (by rw [hd]; rfl) rfl rfl rfl rfl rfl rfl

theorem ObservationAgrees.takeSample {s : State} (h : ObservationAgrees s)
    (result : Option ChannelValues) : ObservationAgrees (s.takeSample result) := by
  have line (ok : Bool) : lineAfter (s.trace ++ [.sample ok]) = some s.tx.dir := lineAfter_append h.line
  have applied (ok : Bool) : lastOutputs (s.trace ++ [.sample ok])
      = if s.ch.appliedValid then some s.ch.applied else none :=
    (lastOutputs_append _ _).trans h.applied
  have sampled (ok : Bool) : lastSample (s.trace ++ [.sample ok]) = some ok := lastSample_append _ _
  cases result with
  | none =>
    rw [takeSample_none]
    exact ⟨line _, applied _, by simp [sampled], by simp [sampled]⟩
  | some v =>
    rw [takeSample_some]
    exact ⟨line _, applied _, by simp [sampled], by simp [sampled]⟩

theorem ObservationAgrees.pwmRefresh {s : State} (h : ObservationAgrees s) :
    ObservationAgrees (pwmRefresh s) := by
  rcases pwmRefresh_cases s with ⟨-, -, e⟩ | e <;> rw [e]
  · exact h
  · exact ⟨lineAfter_append h.line, lastOutputs_append _ _,
      h.stale.trans (by rw [lastSample_append]; rfl), h.primed.trans (by rw [lastSample_append]; rfl)⟩

theorem Wf.dir_receive {s : State} (h : Wf s) (hphase : s.tx.phase = .idle) : s.tx.dir = .receive := by
  obtain ⟨-, ⟨hdir, -⟩, -⟩ := h
  cases hd : s.tx.dir with
  | receive => rfl
  | transmit => exact absurd hphase (hdir.mp hd)

theorem ObservationAgrees.drainByte {b : Byte} {s t : State} (h : ObservationAgrees s) (hw : Wf s)
    (hb : drainByte b s = .next t) : ObservationAgrees t := by
  rcases drainByte_shape hb with ⟨rx, n, es, rfl, -⟩ | ⟨-, rx, n, es, out, -, rfl⟩ |
    ⟨hfree, -, rx, n, es, out, rc, rp, -, rfl⟩
  · exact h.receive rx n es s.ch.out
  · exact h.receive rx n es out
  · exact (h.receive rx n es out).respond (hw.dir_receive (txPhase_of_not_dropping hfree)) rc rp

theorem ObservationAgrees.turnaroundStep {s t : State} (h : ObservationAgrees s)
    (ht : turnaroundStep s = .next t) : ObservationAgrees t := by
  rcases turnaroundStep_cases ht with e | ⟨-, hd, e⟩ <;> rw [e]
  · exact ⟨h.line, h.applied, h.stale, h.primed⟩
  · exact h.line_event rfl (by rw [hd]; rfl) rfl rfl rfl rfl rfl rfl

theorem ObservationAgrees.drainStep {s : State} (h : ObservationAgrees s) (hw : Wf s)
    (complete : Bool) : ObservationAgrees (drainStep complete s) := by
  rcases drainStep_cases complete s with e | ⟨-, hphase, e⟩ <;> rw [e]
  · exact h
  · obtain ⟨-, ⟨hdir, -⟩, -⟩ := hw
    have hd : s.tx.dir = .transmit := hdir.mpr (by simp [hphase])
    exact h.line_event rfl (by rw [hd]; rfl) rfl rfl rfl rfl rfl rfl

theorem ObservationAgrees.sampleStep {s : State} (h : ObservationAgrees s)
    (result : Option ChannelValues) : ObservationAgrees (sampleStep result s) := by
  have counted (n : Nat) : ObservationAgrees { s with freeCount := n } :=
    ⟨h.line, h.applied, h.stale, h.primed⟩
  rcases sampleStep_cases result s with ⟨n, e⟩ | ⟨n, e⟩ <;> rw [e]
  · exact counted n
  · exact (counted n).takeSample result

theorem ObservationAgrees.timeoutCheck {s : State} (h : ObservationAgrees s) :
    ObservationAgrees s.timeoutCheck := by
  obtain ⟨rx, n, es, e, -⟩ := timeoutCheck_shape s
  rw [e]
  exact h.receive rx n es s.ch.out

/-- The invariants are carried along: they say that DIR is Receive where a response may start and Transmit where one ends. -/
theorem observation_keptByParts : KeptByParts fun s => Wf s ∧ ObservationAgrees s where
  begins h := ⟨h.1.beginPass, h.2.line, h.2.applied, h.2.stale, h.2.primed⟩
  byte h hb := ⟨h.1.drainByte hb, h.2.drainByte h.1 hb⟩
  turnaround h ht := ⟨h.1.turnaroundStep ht, h.2.turnaroundStep ht⟩
  finish complete h := ⟨h.1.drainStep complete, h.2.drainStep h.1 complete⟩
  sample result h := ⟨h.1.sampleStep result, h.2.sampleStep result⟩
  refresh h := ⟨h.1.pwmRefresh, h.2.pwmRefresh⟩
  sweep h := ⟨h.1.timeoutCheck, h.2.timeoutCheck⟩

/-- Settles O45: every part of a pass keeps the agreement, given the invariants the pass begins within. -/
theorem passKeepsObservation : Obligations.PassKeepsObservation := by
  intro s t ha h
  obtain ⟨-, hw, -⟩ := step_eq_next.mp h
  exact (observation_keptByParts.step ⟨hw, ha⟩ h).2

/-! ### Outputs and responses come from frames (41_commands.md R183) -/

/-- `t` follows `s` in the observation, and without a FRAME_OK between them OUT stands and no response is started. -/
def ActsOnFramesOnly (s t : State) : Prop :=
  ∃ events, t.trace = s.trace ++ events ∧
    (.rx .frameOk ∉ events → t.ch.out = s.ch.out ∧ .dir .transmit ∉ events)

theorem ActsOnFramesOnly.refl (s : State) : ActsOnFramesOnly s s := ⟨[], by simp⟩

theorem ActsOnFramesOnly.trans {s t u : State} (h : ActsOnFramesOnly s t) (k : ActsOnFramesOnly t u) :
    ActsOnFramesOnly s u := by
  obtain ⟨es, he, hq⟩ := h
  obtain ⟨fs, hf, kq⟩ := k
  refine ⟨es ++ fs, by rw [hf, he, List.append_assoc], fun hok => ?_⟩
  rw [List.mem_append, not_or] at hok ⊢
  exact ⟨(kq hok.2).1.trans (hq hok.1).1, (hq hok.1).2, (kq hok.2).2⟩

/-- A part that keeps OUT and starts no response needs no frame. -/
theorem ActsOnFramesOnly.of_quiet {s t : State} {events : List Event}
    (trace : t.trace = s.trace ++ events) (out : t.ch.out = s.ch.out)
    (quiet : .dir .transmit ∉ events) : ActsOnFramesOnly s t :=
  ⟨events, trace, fun _ => ⟨out, quiet⟩⟩

/-- A part that records a FRAME_OK may do both. -/
theorem ActsOnFramesOnly.of_frame {s t : State} {events : List Event}
    (trace : t.trace = s.trace ++ events) (frame : .rx .frameOk ∈ events) : ActsOnFramesOnly s t :=
  ⟨events, trace, fun h => absurd frame h⟩

theorem respond_trace (rc : Byte) (rp : List Byte) (s : State) :
    ∃ events, (s.respond rc rp).trace = s.trace ++ events := by
  rcases respond_cases rc rp s with e | ⟨-, e⟩ <;> rw [e]
  · exact ⟨[], (List.append_nil _).symm⟩
  · exact ⟨_, rfl⟩

theorem drainByte_actsOnFramesOnly {b : Byte} {s t : State} (h : drainByte b s = .next t) :
    ActsOnFramesOnly s t := by
  rcases drainByte_shape h with ⟨_, _, es, rfl, -⟩ | ⟨-, _, _, es, out, hok, rfl⟩ |
    ⟨-, -, rx, n, es, out, rc, rp, hok, rfl⟩
  · exact .of_quiet (events := es.map Event.rx) rfl rfl (by simp)
  · exact .of_frame (events := es.map Event.rx) rfl (List.mem_map_of_mem hok)
  · obtain ⟨fs, hfs⟩ := respond_trace rc rp { s with
      rx := rx, freeCount := n, trace := s.trace ++ es.map Event.rx, ch := { s.ch with out := out } }
    exact .of_frame (hfs.trans (List.append_assoc ..))
      (List.mem_append_left _ (List.mem_map_of_mem hok))

theorem turnaroundStep_actsOnFramesOnly {s t : State} (h : turnaroundStep s = .next t) :
    ActsOnFramesOnly s t := by
  rcases turnaroundStep_cases h with e | ⟨-, -, e⟩ <;> rw [e]
  · exact .refl s
  · exact .of_quiet rfl rfl (by simp)

theorem drainStep_actsOnFramesOnly (complete : Bool) (s : State) :
    ActsOnFramesOnly s (drainStep complete s) := by
  rcases drainStep_cases complete s with e | ⟨-, -, e⟩ <;> rw [e]
  · exact .refl s
  · exact .of_quiet rfl rfl (by simp)

theorem takeSample_actsOnFramesOnly (result : Option ChannelValues) (s : State) :
    ActsOnFramesOnly s (s.takeSample result) := by
  cases result with
  | none => rw [takeSample_none]; exact .of_quiet rfl rfl (by simp)
  | some v => rw [takeSample_some]; exact .of_quiet rfl rfl (by simp)

theorem sampleStep_actsOnFramesOnly (result : Option ChannelValues) (s : State) :
    ActsOnFramesOnly s (sampleStep result s) := by
  rcases sampleStep_cases result s with ⟨n, e⟩ | ⟨n, e⟩ <;> rw [e]
  · exact .refl s
  · exact takeSample_actsOnFramesOnly result { s with freeCount := n }

theorem pwmRefresh_actsOnFramesOnly (s : State) : ActsOnFramesOnly s (pwmRefresh s) := by
  rcases pwmRefresh_cases s with ⟨-, -, e⟩ | e <;> rw [e]
  · exact .refl s
  · exact .of_quiet rfl rfl (by simp)

theorem timeoutCheck_actsOnFramesOnly (s : State) : ActsOnFramesOnly s s.timeoutCheck := by
  obtain ⟨_, _, es, e, -⟩ := timeoutCheck_shape s
  rw [e]
  exact .of_quiet (events := es.map Event.rx) rfl rfl (by simp)

theorem actsOnFramesOnly_keptByParts (s : State) : KeptByParts (ActsOnFramesOnly s) where
  begins h := h
  byte h hb := h.trans (drainByte_actsOnFramesOnly hb)
  turnaround h ht := h.trans (turnaroundStep_actsOnFramesOnly ht)
  finish complete h := h.trans (drainStep_actsOnFramesOnly complete _)
  sample result h := h.trans (sampleStep_actsOnFramesOnly result _)
  refresh h := h.trans (pwmRefresh_actsOnFramesOnly _)
  sweep h := h.trans (timeoutCheck_actsOnFramesOnly _)

/-- Settles O48: only a byte that completes a frame writes OUT or sets the direction to Transmit. -/
theorem onlyFramesChangeOutputsOrAnswer : Obligations.OnlyFramesChangeOutputsOrAnswer :=
  fun s _ h => (actsOnFramesOnly_keptByParts s).step (.refl s) h

end Sys2Proof.Machine
end
section
/-! PROOFS. What every command leaves unchanged (41_commands.md R183, R186), the encodings of the phases (10_state.md R22, R30, R31),
the reset state (R47), and the refusals outside the premises. -/
namespace Sys2Proof.Machine

/-! ### The frame of a command -/

theorem exec_eq_next {i : Instr} {s t : State} :
    exec i s = .next t ↔ t = s.dispatch i.addr (commandOf i) := by
  rw [exec_eq_dispatch]
  exact ⟨fun h => by cases h; rfl, fun h => by rw [h]⟩

/-- A dispatched command writes OUT, the transmitter, `responding` and the observation, and nothing else. -/
theorem dispatch_writes (i : Instr) (addr : Byte) (s : State) : ∃ out tx responding trace,
    s.dispatch addr (commandOf i) = { s with
      ch := { s.ch with out := out }, tx := tx, responding := responding, trace := trace } := by
  rcases dispatch_shape i addr s with e | ⟨out, e⟩ | ⟨out, rc, rp, -, -, e⟩
  · exact ⟨_, _, _, _, e⟩
  · exact ⟨_, _, _, _, e⟩
  · obtain ⟨_, _, e'⟩ := respond_shape rc rp { s with ch := { s.ch with out := out } }
    exact ⟨_, _, _, _, e.trans e'⟩

/-- A command that is not for this board alone is silent (41_commands.md R161, R162). -/
theorem dispatch_silent (i : Instr) {addr : Byte} {s : State}
    (h : addr = s.cfg.broadcastAddr ∨ addr ≠ s.cfg.boardAddr) :
    ∃ out, s.dispatch addr (commandOf i) = { s with ch := { s.ch with out := out } } := by
  rcases dispatch_shape i addr s with e | e | ⟨_, _, _, hown, hc, -⟩
  · exact ⟨s.ch.out, e⟩
  · exact e
  · exact (h.elim hc (absurd hown)).elim

/-- OUT is SET_OUTPUTS's alone (10_state.md R36). -/
theorem dispatch_out {i : Instr} (h : ∀ addr payload, i ≠ .setOutputs addr payload) (addr : Byte)
    (s : State) : (s.dispatch addr (commandOf i)).ch.out = s.ch.out := by
  have effect : (commandOf i s).state = s := by
    rcases commandOf_state i s with e | ⟨a, pl, hi, -⟩
    · exact e
    · exact absurd hi (h a pl)
  rcases dispatch_ch s addr (commandOf i) with e | e
  · rw [e]
  · rw [e, effect]

/-- Settles O17: the registers a dispatched command writes are named by `dispatch_writes`. -/
theorem commandsLeaveTheRestUnchanged : Obligations.CommandsLeaveTheRestUnchanged := by
  intro i s t h
  rw [exec_eq_next] at h
  subst h
  obtain ⟨_, _, _, _, written⟩ := dispatch_writes i i.addr s
  have silent (hi : i.addr = s.cfg.broadcastAddr ∨ i.addr ≠ s.cfg.boardAddr) :
      let t := s.dispatch i.addr (commandOf i)
      t.tx = s.tx ∧ (∀ k : Nat, t.tx.buf[k]? = s.tx.buf[k]?) ∧ t.trace = s.trace ∧
        t.responding = s.responding := by
    obtain ⟨_, e⟩ := dispatch_silent i hi
    rw [e]
    exact ⟨rfl, fun _ => rfl, rfl, rfl⟩
  refine ⟨?_, ?_, ?_, ?_, ?_, ?_, ?_, ?_, ?_, ?_, ?_, ?_, ?_, ?_, fun hi => dispatch_out hi _ _,
    silent⟩ <;> simp [written]

/-! ### Encodings -/

theorem RxPhase.ofCode_code (ph : RxPhase) : RxPhase.ofCode ph.code = some ph := by cases ph <;> rfl

theorem TxPhase.ofCode_code (ph : TxPhase) : TxPhase.ofCode ph.code = some ph := by cases ph <;> rfl

/-- Settles O9: each phase reads back, and the remaining codes lie past the end of the list of phases. -/
theorem phaseEncodings : Obligations.PhaseEncodings :=
  ⟨rfl, RxPhase.ofCode_code, rfl, rfl, rfl, TxPhase.ofCode_code, rfl, rfl⟩

/-! ### Reset -/

theorem resetWith_wf (p : Params) : Wf (State.resetWith p) := by
  have hpos : 0 < 2 ^ p.tickW := Nat.two_pow_pos _
  have hrx : ReceiverWf p (State.resetWith p).rx :=
    ⟨nofun, Nat.zero_le _, nofun, List.length_replicate, hpos⟩
  have htx : TransmitterWf p (State.resetWith p).tx :=
    ⟨⟨nofun, fun h => absurd rfl h⟩, le_rfl, Nat.zero_le _, hpos⟩
  have hch : ChannelsWf p (State.resetWith p).ch :=
    ⟨fun i => by simp [State.resetWith, BitVec.le_def], fun i => by simp [State.resetWith], hpos⟩
  exact ⟨hrx, htx, fun _ => rfl, hch, hpos⟩

/-- The reset's one event, `Dir(Receive)`, says what its registers say (70_reset_and_hazards.md R261). -/
theorem resetWith_observationAgrees (p : Params) : ObservationAgrees (State.resetWith p) :=
  ⟨rfl, rfl, rfl, rfl⟩

theorem resetWith_sendsOwnFrames (p : Params) : SendsOwnFrames (State.resetWith p) where
  sent bs h := by simp [State.resetWith] at h
  waiting h := nomatch h

/-- Settles O44: no premise on the configuration is needed for it. -/
theorem resetMeetsInvariants : Obligations.ResetMeetsInvariants :=
  fun p _ => ⟨resetWith_wf p, resetWith_observationAgrees p, resetWith_sendsOwnFrames p⟩

theorem resetWith_buf {p : Params} {k : Nat} (h : k < p.maxPayload.toNat) :
    (State.resetWith p).rx.buf[k]? = some 0 := List.getElem?_replicate_of_lt h

theorem resetWith_channel (p : Params) (i : Fin channelCount) :
    (State.resetWith p).ch.inputs[i].raw = 0 ∧ (State.resetWith p).ch.inputs[i].tick = 0 ∧
      (State.resetWith p).ch.out[i] = 0 ∧ (State.resetWith p).ch.applied[i] = 0 := by
  simp [State.resetWith]

/-- Settles O58: the arrays are read by index; every other register is a field of the reset state. -/
theorem resetValues : Obligations.ResetValues := by
  intro p
  exact ⟨rfl, rfl, rfl, rfl, rfl, rfl, rfl, rfl, fun _ => resetWith_buf, rfl, rfl, rfl, rfl, rfl, rfl,
    resetWith_channel p, rfl, rfl, rfl, rfl⟩

/-! ### Outside the premises -/

/-- Settles O57: the pass tests the configuration first, then the state. -/
theorem noMeaningOutsidePremises : Obligations.NoMeaningOutsidePremises :=
  fun _ => ⟨fun hv => if_neg hv, fun hv hw => (if_pos hv).trans (if_neg hw)⟩

end Sys2Proof.Machine
end
section
/-! PROOFS. One pass as a whole (42_control_loop.md R190): the outputs it applies, the one sample it takes, and the one response it
starts. -/
namespace Sys2Proof.Machine

/-- A step that goes on is one drain, one transmit step, and then sampling, refresh and sweep. -/
theorem step_parts {s t : State} (h : step s = .next t) :
    ∃ u v, drain s.nextInput.rx s.beginPass = .next u ∧
      transmitStep s.nextInput.txComplete u = .next v ∧
      t = (pwmRefresh (sampleStep s.nextInput.sample v)).timeoutCheck := by
  obtain ⟨-, -, h⟩ := step_eq_next.mp h
  exact pass_eq_next.mp h

/-- A transmit step is a turnaround step, then the end of a transmission or nothing. -/
theorem transmitStep_parts {complete : Bool} {s t : State} (h : transmitStep complete s = .next t) :
    ∃ u, turnaroundStep s = .next u ∧ t = drainStep complete u := by
  obtain ⟨u, hu, h⟩ := andThen_eq_next.mp h
  cases h
  exact ⟨u, hu, rfl⟩

/-! ### What the parts of a pass do to the channels and to the tick -/

@[simp] theorem timeoutCheck_ch (s : State) : s.timeoutCheck.ch = s.ch := by
  obtain ⟨_, _, _, e, -⟩ := timeoutCheck_shape s; rw [e]

@[simp] theorem timeoutCheck_now (s : State) : s.timeoutCheck.now = s.now := by
  obtain ⟨_, _, _, e, -⟩ := timeoutCheck_shape s; rw [e]

/-- The refresh leaves the PWM holding OUT, whether it pushes or not (42_control_loop.md R203). -/
theorem pwmRefresh_applied (s : State) :
    (pwmRefresh s).ch.applied = (pwmRefresh s).ch.out ∧ (pwmRefresh s).ch.appliedValid = true := by
  rcases pwmRefresh_cases s with ⟨hvalid, happlied, e⟩ | e <;> rw [e]
  · exact ⟨happlied, hvalid⟩
  · exact ⟨rfl, rfl⟩

@[simp] theorem pwmRefresh_inputs (s : State) : (pwmRefresh s).ch.inputs = s.ch.inputs := by
  rcases pwmRefresh_cases s with ⟨-, -, e⟩ | e <;> rw [e]

@[simp] theorem pwmRefresh_now (s : State) : (pwmRefresh s).now = s.now := by
  rcases pwmRefresh_cases s with ⟨-, -, e⟩ | e <;> rw [e]

@[simp] theorem takeSample_now (result : Option ChannelValues) (s : State) :
    (s.takeSample result).now = s.now := by
  cases result with
  | none => rw [takeSample_none]
  | some v => rw [takeSample_some]

@[simp] theorem sampleStep_now (result : Option ChannelValues) (s : State) :
    (sampleStep result s).now = s.now := by
  rcases sampleStep_cases result s with ⟨_, e⟩ | ⟨_, e⟩ <;> rw [e]
  exact takeSample_now _ _

/-- Sampling leaves the input channels as they are, or writes all 16 from one sample at one tick (42_control_loop.md R201, R202). -/
theorem sampleStep_inputs (result : Option ChannelValues) (s : State) :
    (sampleStep result s).ch.inputs = s.ch.inputs ∨
      ∃ v, result = some v ∧
        (sampleStep result s).ch.inputs = Vector.ofFn fun i => { raw := v[i], tick := s.now } := by
  rcases sampleStep_cases result s with ⟨_, e⟩ | ⟨_, e⟩ <;> rw [e]
  · exact .inl rfl
  · cases result with
    | none => rw [takeSample_none]; exact .inl rfl
    | some v => rw [takeSample_some]; exact .inr ⟨v, rfl, rfl⟩

/-- No byte of a drain reaches the input channels. -/
theorem drainByte_inputs {b : Byte} {s t : State} (h : drainByte b s = .next t) :
    t.ch.inputs = s.ch.inputs := by
  rcases drainByte_shape h with ⟨_, _, _, rfl, -⟩ | ⟨-, _, _, _, _, -, rfl⟩ |
    ⟨-, -, _, _, _, _, _, _, -, rfl⟩
  · rfl
  · rfl
  · rw [respond_ch]

theorem drain_inputs {q : List Byte} {s t : State} (h : drain q s = .next t) :
    t.ch.inputs = s.ch.inputs :=
  drain_induct (P := fun u => u.ch.inputs = s.ch.inputs) (fun _ _ _ hu hb => (drainByte_inputs hb).trans hu)
    rfl h

theorem turnaroundStep_ch {s t : State} (h : turnaroundStep s = .next t) : t.ch = s.ch := by
  rcases turnaroundStep_cases h with e | ⟨-, -, e⟩ <;> rw [e]

@[simp] theorem drainStep_ch (complete : Bool) (s : State) : (drainStep complete s).ch = s.ch := by
  rcases drainStep_cases complete s with e | ⟨-, -, e⟩ <;> rw [e]

theorem transmitStep_ch {complete : Bool} {s t : State} (h : transmitStep complete s = .next t) :
    t.ch = s.ch := by
  obtain ⟨u, hu, rfl⟩ := transmitStep_parts h
  rw [drainStep_ch, turnaroundStep_ch hu]

/-- Settles O53: the refresh applies OUT, and only the sweep, which keeps the channels, comes after it. -/
theorem everyPassAppliesOutputs : Obligations.EveryPassAppliesOutputs := by
  intro s t h
  obtain ⟨u, v, -, -, rfl⟩ := step_parts h
  rw [timeoutCheck_ch]
  exact pwmRefresh_applied _

/-- Settles O54: of a pass's parts only the sampling step writes the input channels, and none writes the tick after it. -/
theorem inputsChangeAsOneSample : Obligations.InputsChangeAsOneSample := by
  intro s t h
  obtain ⟨u, v, hu, hv, rfl⟩ := step_parts h
  have before : v.ch.inputs = s.ch.inputs := by rw [transmitStep_ch hv, drain_inputs hu, State.beginPass_ch]
  rcases sampleStep_inputs s.nextInput.sample v with e | ⟨w, hw, e⟩
  · exact .inl (by simp [e, before])
  · exact .inr ⟨w, hw, by simp [e]⟩

/-! ### How many responses a pass starts (42_control_loop.md R193, R195) -/

/-- `t` follows `s` in the observation, with at most `n` responses started between them. -/
def StartsAtMost (n : Nat) (s t : State) : Prop :=
  ∃ events, t.trace = s.trace ++ events ∧ events.count (.dir .transmit) ≤ n

theorem StartsAtMost.refl (s : State) : StartsAtMost 0 s s := ⟨[], by simp⟩

theorem StartsAtMost.trans {m n : Nat} {s t u : State} (h : StartsAtMost m s t) (k : StartsAtMost n t u) :
    StartsAtMost (m + n) s u := by
  obtain ⟨es, he, hm⟩ := h
  obtain ⟨fs, hf, kn⟩ := k
  exact ⟨es ++ fs, by rw [hf, he, List.append_assoc], by rw [List.count_append]; omega⟩

/-- A part that does not set the direction to Transmit starts nothing. -/
theorem StartsAtMost.of_quiet {s t : State} {events : List Event} (trace : t.trace = s.trace ++ events)
    (quiet : .dir .transmit ∉ events) : StartsAtMost 0 s t :=
  ⟨events, trace, (List.count_eq_zero.mpr quiet).le⟩

theorem respond_startsAtMost (rc : Byte) (rp : List Byte) (s : State) :
    StartsAtMost 1 s (s.respond rc rp) := by
  rcases respond_cases rc rp s with e | ⟨-, e⟩ <;> rw [e]
  · exact ⟨[], by simp⟩
  · exact ⟨[.dir .transmit], rfl, le_rfl⟩

/-- How many responses the rest of a drain can start: none while its bytes are dropped, and one otherwise. -/
def State.responsesLeft (s : State) : Nat := if s.Dropping then 0 else 1

theorem responsesLeft_le_one (s : State) : s.responsesLeft ≤ 1 := by
  unfold State.responsesLeft; split <;> omega

theorem responsesLeft_of_dropping {s : State} (h : s.Dropping) : s.responsesLeft = 0 := if_pos h

theorem responsesLeft_of_not_dropping {s : State} (h : ¬ s.Dropping) : s.responsesLeft = 1 := if_neg h

/-- After a response, started or refused by the encoder, the drain answers nothing more (42_control_loop.md R195). -/
theorem respond_dropping (rc : Byte) (rp : List Byte) (s : State) : (s.respond rc rp).Dropping := by
  obtain ⟨_, _, e⟩ := respond_shape rc rp s
  exact .inr (by rw [e])

/-- One byte pays for a response it starts out of what the drain has left. -/
theorem drainByte_startsAtMost {b : Byte} {s t : State} (h : drainByte b s = .next t) :
    ∃ n, StartsAtMost n s t ∧ n + t.responsesLeft ≤ s.responsesLeft := by
  rcases drainByte_shape h with ⟨_, _, es, rfl, -⟩ | ⟨-, _, _, es, _, -, rfl⟩ |
    ⟨hfree, -, _, _, es, _, rc, rp, -, rfl⟩
  · exact ⟨0, .of_quiet (events := es.map Event.rx) rfl (by simp), (Nat.zero_add _).le⟩
  · exact ⟨0, .of_quiet (events := es.map Event.rx) rfl (by simp), (Nat.zero_add _).le⟩
  · refine ⟨0 + 1, .trans (.of_quiet (events := es.map Event.rx) ?_ (by simp))
      (respond_startsAtMost rc rp _), ?_⟩
    · rfl
    · rw [responsesLeft_of_dropping (respond_dropping rc rp _), responsesLeft_of_not_dropping hfree]

theorem drain_startsAtMost {q : List Byte} {s t : State} (h : drain q s = .next t) :
    StartsAtMost s.responsesLeft s t := by
  have paid : ∃ n, StartsAtMost n s t ∧ n + t.responsesLeft ≤ s.responsesLeft := by
    refine drain_induct (P := fun u => ∃ n, StartsAtMost n s u ∧ n + u.responsesLeft ≤ s.responsesLeft)
      ?_ ⟨0, .refl s, (Nat.zero_add _).le⟩ h
    rintro b u w ⟨m, hm, hleft⟩ hb
    obtain ⟨n, hn, kleft⟩ := drainByte_startsAtMost hb
    exact ⟨m + n, hm.trans hn, by omega⟩
  obtain ⟨n, ⟨events, trace, hn⟩, hleft⟩ := paid
  exact ⟨events, trace, by omega⟩

theorem turnaroundStep_startsNone {s t : State} (h : turnaroundStep s = .next t) : StartsAtMost 0 s t := by
  rcases turnaroundStep_cases h with e | ⟨-, -, e⟩ <;> rw [e]
  · exact .refl s
  · exact .of_quiet rfl (by simp)

theorem drainStep_startsNone (complete : Bool) (s : State) : StartsAtMost 0 s (drainStep complete s) := by
  rcases drainStep_cases complete s with e | ⟨-, -, e⟩ <;> rw [e]
  · exact .refl s
  · exact .of_quiet rfl (by simp)

theorem transmitStep_startsNone {complete : Bool} {s t : State} (h : transmitStep complete s = .next t) :
    StartsAtMost 0 s t := by
  obtain ⟨u, hu, rfl⟩ := transmitStep_parts h
  exact (turnaroundStep_startsNone hu).trans (drainStep_startsNone complete u)

theorem takeSample_startsNone (result : Option ChannelValues) (s : State) :
    StartsAtMost 0 s (s.takeSample result) := by
  cases result with
  | none => rw [takeSample_none]; exact .of_quiet rfl (by simp)
  | some v => rw [takeSample_some]; exact .of_quiet rfl (by simp)

theorem sampleStep_startsNone (result : Option ChannelValues) (s : State) :
    StartsAtMost 0 s (sampleStep result s) := by
  rcases sampleStep_cases result s with ⟨n, e⟩ | ⟨n, e⟩ <;> rw [e]
  · exact .refl s
  · exact takeSample_startsNone result { s with freeCount := n }

theorem pwmRefresh_startsNone (s : State) : StartsAtMost 0 s (pwmRefresh s) := by
  rcases pwmRefresh_cases s with ⟨-, -, e⟩ | e <;> rw [e]
  · exact .refl s
  · exact .of_quiet rfl (by simp)

theorem timeoutCheck_startsNone (s : State) : StartsAtMost 0 s s.timeoutCheck := by
  obtain ⟨_, _, es, e, -⟩ := timeoutCheck_shape s
  rw [e]
  exact .of_quiet (events := es.map Event.rx) rfl (by simp)

/-- A pass starts what its drain can start: every later part starts nothing. -/
theorem step_startsAtMost {s t : State} (h : step s = .next t) :
    StartsAtMost s.beginPass.responsesLeft s t := by
  obtain ⟨u, v, hu, hv, rfl⟩ := step_parts h
  have drained : StartsAtMost s.beginPass.responsesLeft s u := drain_startsAtMost hu
  exact (((drained.trans (transmitStep_startsNone hv)).trans (sampleStep_startsNone _ v)).trans
    (pwmRefresh_startsNone _)).trans (timeoutCheck_startsNone _)

/-- Settles O49: a pass begins with one response left to start, and with none while the line is held. -/
theorem atMostOneResponseAPass : Obligations.AtMostOneResponseAPass := by
  intro s t h
  obtain ⟨events, trace, hcount⟩ := step_startsAtMost h
  refine ⟨events, trace, hcount.trans (responsesLeft_le_one _), fun hbusy => ?_⟩
  rwa [responsesLeft_of_dropping (s := s.beginPass) (.inl hbusy), Nat.le_zero] at hcount

end Sys2Proof.Machine
end
section
/-! PROOFS. The frame codec (30_encoding.md R80-R88): the decoder reads exactly the frames the encoder writes, the command map
selects one rule, and the encodings of R106. -/
namespace Sys2Proof.Machine

/-! ### Encode and decode -/

/-- The encoder gives the frame of a payload that fits, and nothing else (40_frame_codec.md R140). -/
theorem encodeFrame_eq_some_iff {p : Params} {addr cmd : Byte} {payload bytes : List Byte} :
    encodeFrame p addr cmd payload = some bytes ↔
      payload.length ≤ p.maxPayload.toNat ∧ bytes = frameBytes p addr cmd payload := by
  by_cases h : payload.length ≤ p.maxPayload.toNat
  · simp [encodeFrame_eq_some h, h, eq_comm]
  · simp [encodeFrame, h, Nat.lt_of_not_le h]

/-- A frame with bytes after it, taken apart as the decoder reads it: four header bytes, then the rest (30_encoding.md R81). -/
theorem frameBytes_append (p : Params) (addr cmd : Byte) (payload rest : List Byte) :
    frameBytes p addr cmd payload ++ rest =
      p.startByte :: addr :: cmd :: lengthByte payload ::
        (payload ++ (crcField p (coveredBytes addr cmd payload) ++ rest)) := by
  simp [frameBytes, coveredBytes]

/-- The decoder accepts a frame by its LENGTH byte alone, whatever follows (30_encoding.md R102). -/
theorem decode_frameBytes_append {p : Params} {payload : List Byte}
    (h : payload.length ≤ p.maxPayload.toNat) (addr cmd : Byte) (rest : List Byte) :
    decode p (frameBytes p addr cmd payload ++ rest) = .ok (decodeCommand p addr cmd payload, rest) := by
  have hlen := lengthByte_toNat h
  have hcrc := crcField_length p (addr :: cmd :: lengthByte payload :: payload)
  have fits : ¬ p.maxPayload < lengthByte payload := by rw [BitVec.lt_def]; omega
  rw [frameBytes_append, decode]
  simp [fits, hlen, ← hcrc, ← List.drop_drop, coveredBytes]

/-- The LENGTH byte of a payload that was cut to it. -/
theorem lengthByte_take {len : Byte} {bytes : List Byte} (h : len.toNat ≤ bytes.length) :
    lengthByte (bytes.take len.toNat) = len := by
  simp [lengthByte, h]

/-- What the decoder accepts: the frame of a payload within MAX_PAYLOAD, followed by the rest (30_encoding.md R80, R84, R88). -/
theorem decode_eq_ok_iff {p : Params} {bytes rest : List Byte} {i : Instr} :
    decode p bytes = .ok (i, rest) ↔ ∃ addr cmd payload, payload.length ≤ p.maxPayload.toNat ∧
      i = decodeCommand p addr cmd payload ∧ bytes = frameBytes p addr cmd payload ++ rest := by
  constructor
  · intro h
    unfold decode at h
    split at h
    · rename_i start addr cmd len tail
      split_ifs at h with hstart hover hshort hcrc
      cases h
      have hlen := lengthByte_take (len := len) (bytes := tail) (by omega)
      refine ⟨addr, cmd, tail.take len.toNat, ?_, rfl, ?_⟩
      · rw [List.length_take]
        bv_omega
      · rw [frameBytes_append, hlen, coveredBytes, hlen, ← hcrc, ← List.drop_drop,
          List.take_append_drop, List.take_append_drop, not_not.mp hstart]
    · cases h
    · split_ifs at h
  · rintro ⟨addr, cmd, payload, hfits, rfl, rfl⟩
    exact decode_frameBytes_append hfits addr cmd rest

theorem encode_eq_some_iff {p : Params} {i : Instr} {bytes : List Byte} :
    encode p i = some bytes ↔
      i.payload.length ≤ p.maxPayload.toNat ∧ bytes = frameBytes p i.addr (i.cmd p) i.payload :=
  encodeFrame_eq_some_iff

/-- The command map reads every well-formed instruction back (30_encoding.md R88, R89). -/
theorem decodeCommand_of_wellFormed {p : Params} {i : Instr} (hd : CommandCodesDistinct p)
    (hi : i.WellFormed p) : decodeCommand p i.addr (i.cmd p) i.payload = i := by
  cases i with
  | ping addr payload => exact Laws.CommandDecodes.ping addr payload p hd hi
  | readInputs addr payload => exact Laws.CommandDecodes.readInputs addr payload p hd hi
  | setOutputs addr payload => exact Laws.CommandDecodes.setOutputs addr payload p hd hi
  | reserved addr cmd payload => exact Laws.CommandDecodes.reserved addr cmd payload p hd hi

/-- Settles O1: the decoder accepts the frame, and the command map reads its fields back as the instruction. -/
theorem decodeEncodeAgree : Obligations.DecodeEncodeAgree := by
  intro p i bytes rest hd hi henc
  obtain ⟨hfits, rfl⟩ := encode_eq_some_iff.mp henc
  rw [decode_frameBytes_append hfits, decodeCommand_of_wellFormed hd hi]

/-- Settles O2: the accepted bytes are a frame, and the command map keeps the fields it was built from. -/
theorem decodedBytesAreTheEncoding : Obligations.DecodedBytesAreTheEncoding := by
  intro p i bytes rest h
  obtain ⟨addr, cmd, payload, hfits, rfl, rfl⟩ := decode_eq_ok_iff.mp h
  obtain ⟨haddr, hcmd, hpayload⟩ := decodeCommand_fields p addr cmd payload
  have fits : (decodeCommand p addr cmd payload).payload.length ≤ p.maxPayload.toNat := by
    rwa [hpayload]
  exact ⟨⟨fits, decodeCommand_cmdFits p addr cmd payload⟩, _,
    encode_eq_some_iff.mpr ⟨fits, rfl⟩, by rw [haddr, hcmd, hpayload]⟩

/-! ### The command map -/

/-- A code of none of the three commands falls to the reserved rule (30_encoding.md R88). -/
theorem decodeCommand_of_isReserved {p : Params} {cmd : Byte} (h : p.IsReserved cmd) (addr : Byte)
    (payload : List Byte) : decodeCommand p addr cmd payload = .reserved addr cmd payload := by
  obtain ⟨hping, hread, hset⟩ := h
  simp [decodeCommand, hping, hread, hset]

/-- The premise on the command codes, pair by pair (70_reset_and_hazards.md R263). -/
theorem commandCodesDistinct_iff {p : Params} : CommandCodesDistinct p ↔
    (p.cmdReadInputs ≠ p.cmdPing ∧ p.cmdSetOutputs ≠ p.cmdPing ∧
      p.cmdSetOutputs ≠ p.cmdReadInputs) ∧ p.IsReserved p.rspError := by
  grind

/-- Settles O6: distinct codes let only one test of the map succeed, and RSP_ERROR none. -/
theorem commandByteSelectsOneRule : Obligations.CommandByteSelectsOneRule := by
  intro p addr cmd payload hd
  obtain ⟨⟨hrp, hsp, hsr⟩, herr⟩ := commandCodesDistinct_iff.mp hd
  refine ⟨?_, ?_, ?_, fun h => decodeCommand_of_isReserved h addr payload,
    decodeCommand_of_isReserved herr addr payload⟩ <;> rintro rfl
  · simp [decodeCommand]
  · simp [decodeCommand, hrp]
  · simp [decodeCommand, hsp, hsr]

/-! ### The frames of R106 -/

/-- Settles O4: the encoder computes the five frames, and what it gives for an empty payload decodes. -/
theorem defaultFramesDecode : Obligations.DefaultFramesDecode := by
  have short (addr cmd : Byte) :=
    decode_frameBytes_append (p := Params.example) (payload := []) (Nat.zero_le _) addr cmd []
  exact ⟨short 0x05 0x01, short 0x05 0x02, short 0x09 0x02, short 0xFF 0x01, short 0x05 0x03,
    rfl, rfl, rfl, rfl, rfl⟩

end Sys2Proof.Machine
end
section
/-! PROOFS. The CRC (30_encoding.md R84-R87): each step loses neither the register nor the byte, so that one changed byte shows in
the CRC field. -/
namespace Sys2Proof.Machine

/-- A fold whose step loses neither its state nor its byte tells two lists apart that differ in one place. -/
theorem foldl_ne_of_one_differs {σ β : Type} {f : σ → β → σ} (state : ∀ b, Function.Injective (f · b))
    (byte : ∀ c, Function.Injective (f c)) {x y : β} (hxy : x ≠ y) (c : σ) (before after : List β) :
    (before ++ x :: after).foldl f c ≠ (before ++ y :: after).foldl f c := by
  have foldl_injective : Function.Injective fun c => after.foldl f c := by
    induction after with
    | nil => exact Function.injective_id
    | cons b q ih => exact ih.comp (state b)
  simp only [List.foldl_append, List.foldl_cons]
  exact fun h => hxy (byte _ (foldl_injective h))

theorem crc8_ne_of_one_differs {x y : Byte} (hxy : x ≠ y) (before after : List Byte) :
    crc8 (before ++ x :: after) ≠ crc8 (before ++ y :: after) := by
  refine foldl_ne_of_one_differs ?_ ?_ hxy _ before after
  · exact fun b _ _ h => (BitVec.xor_left_inj b).mp (crcShifts_injective (by decide) rfl 8 h)
  · exact fun c _ _ h => (BitVec.xor_right_inj c).mp (crcShifts_injective (by decide) rfl 8 h)

/-- A byte in the high half of a CRC16 register is all there (30_encoding.md R86). -/
theorem setWidth_shiftLeft_injective :
    Function.Injective fun b : Byte => b.setWidth 16 <<< 8 := by
  intro x y h
  have high (b : Byte) : ((b.setWidth 16 <<< 8) >>> 8).setWidth 8 = b := by
    ext i hi
    simp [BitVec.getElem_setWidth, show 8 + i < 16 by omega, BitVec.getLsbD_eq_getElem hi]
  simpa only [high] using congrArg (fun v : Half => (v >>> 8).setWidth 8) h

theorem crc16_ne_of_one_differs {x y : Byte} (hxy : x ≠ y) (before after : List Byte) :
    crc16 (before ++ x :: after) ≠ crc16 (before ++ y :: after) := by
  refine foldl_ne_of_one_differs ?_ ?_ hxy _ before after
  · exact fun b _ _ h => (BitVec.xor_left_inj _).mp (crcShifts_injective (by decide) rfl 8 h)
  · exact fun c _ _ h => setWidth_shiftLeft_injective
      ((BitVec.xor_right_inj c).mp (crcShifts_injective (by decide) rfl 8 h))

theorem le16_injective : Function.Injective le16 := by
  intro v w h
  rw [← u16_le16 v, u16_eq_iff, ← h]
  rfl

/-- Settles O7: the CRC differs, and its field holds the whole of it. -/
theorem crcTellsOneByteApart : Obligations.CrcTellsOneByteApart := by
  intro p before after x y hxy
  unfold crcField
  cases p.crcProfile with
  | crc8 => simpa using crc8_ne_of_one_differs hxy before after
  | crc16 => exact le16_injective.ne (crc16_ne_of_one_differs hxy before after)

/-- Settles O5, by running the two CRCs on the bytes of R87. -/
theorem crcCheckValues : Obligations.CrcCheckValues := by
  unfold Obligations.CrcCheckValues
  decide

end Sys2Proof.Machine
end
section
/-! PROOFS. The 16-channel payload layout (30_encoding.md R91-R93): channel i stands at offsets 2i and 2i + 1, low byte first, and
no bit is lost either way. -/
namespace Sys2Proof.Machine

/-- In a list of 16-bit values, value i takes the bytes at 2i and 2i + 1 (30_encoding.md R91). -/
theorem flatMap_le16_getElem? (l : List Half) (i : Nat) :
    (l.flatMap le16)[2 * i]? = l[i]?.map (·.setWidth 8) ∧
      (l.flatMap le16)[2 * i + 1]? = l[i]?.map fun v : Half => (v >>> 8).setWidth 8 := by
  induction l generalizing i with
  | nil => simp
  | cons v l ih =>
    cases i with
    | zero => simp [le16]
    | succ i => simpa [le16, Nat.mul_succ] using ih i

theorem channelBytes_length (v : ChannelValues) : (channelBytes v).length = 32 := by
  simp [channelBytes, List.length_flatMap, le16_length, channelCount]

theorem channelBytes_low (v : ChannelValues) (i : Fin channelCount) :
    (channelBytes v)[2 * i.val]? = some (v[i].setWidth 8) := by
  rw [channelBytes, (flatMap_le16_getElem? v.toList i).1]
  simp

theorem channelBytes_high (v : ChannelValues) (i : Fin channelCount) :
    (channelBytes v)[2 * i.val + 1]? = some ((v[i] >>> 8).setWidth 8) := by
  rw [channelBytes, (flatMap_le16_getElem? v.toList i).2]
  simp

/-- The model's writer gives the layout of R91. -/
theorem channelBytes_eq_valuesPayload (v : ChannelValues) : channelBytes v = valuesPayload v := by
  have channels : v.toList = (List.finRange channelCount).map (v[·]) := by
    rw [← List.ofFn_eq_map]
    exact List.ext_getElem (by rw [List.length_ofFn, Vector.length_toList]) fun i _ _ => by
      rw [List.getElem_ofFn, Vector.getElem_toList]
      rfl
  rw [channelBytes, channels, List.flatMap_map, valuesPayload]
  simp only [le16_eq_extract]

/-- The reader gives back what was laid out (30_encoding.md R92). -/
theorem dutyValues_channelBytes (v : ChannelValues) : dutyValues (channelBytes v) = v := by
  ext i hi : 1
  have low := channelBytes_low v ⟨i, hi⟩
  have high := channelBytes_high v ⟨i, hi⟩
  simp only [dutyValues, Vector.getElem_ofFn, List.getD_eq_getElem?_getD, low, high]
  exact u16_le16 v[i]

/-- The two bytes of a value assembled from two bytes (41_commands.md R184 (e)). -/
theorem u16_low_high (lo hi : Byte) :
    (u16 lo hi).setWidth 8 = lo ∧ (u16 lo hi >>> 8).setWidth 8 = hi := by
  have split : le16 (u16 lo hi) = [lo, hi] := (u16_eq_iff.mp rfl).symm
  simpa [le16] using split

/-- The writer gives back what was read, byte by byte (30_encoding.md R92). -/
theorem channelBytes_dutyValues {payload : List Byte} (h : payload.length = 32) :
    channelBytes (dutyValues payload) = payload := by
  have value (i : Fin channelCount) : (dutyValues payload)[i]
      = u16 (payload.getD (2 * i.val) 0) (payload.getD (2 * i.val + 1) 0) := by simp [dutyValues]
  refine List.ext_getElem (by rw [channelBytes_length, h]) fun k _ hk => Option.some.inj ?_
  rw [← List.getElem?_eq_getElem]
  obtain ⟨i, rfl | rfl⟩ := k.even_or_odd'
  · have low := channelBytes_low (dutyValues payload) ⟨i, show i < 16 by omega⟩
    rw [low, value, (u16_low_high _ _).1, List.getD_eq_getElem _ _ hk]
  · have high := channelBytes_high (dutyValues payload) ⟨i, show i < 16 by omega⟩
    rw [high, value, (u16_low_high _ _).2, List.getD_eq_getElem _ _ hk]

/-- Settles O8: reader and writer are each other's inverse, channel by channel. -/
theorem channelLayoutLosesNoBit : Obligations.ChannelLayoutLosesNoBit := by
  constructor
  · intro d
    rw [← channelBytes_eq_valuesPayload]
    exact ⟨dutyValues_channelBytes d, rfl⟩
  · intro payload h
    rw [← channelBytes_eq_valuesPayload, channelBytes_dutyValues h]

end Sys2Proof.Machine
end
section
/-! PROOFS. What the commands answer (41_commands.md R160-R177): the response each command rule gives, and the dispatcher's two ways
with it. -/
namespace Sys2Proof.Machine

/-! ### The dispatcher, for a command of this board and for a broadcast -/

/-- Under a valid configuration every payload of up to 32 bytes fits a frame (70_reset_and_hazards.md R263). -/
theorem Valid.fits {p : Params} (hv : Valid p) {n : Nat} (h : n ≤ 32) : n ≤ p.maxPayload.toNat := by
  obtain ⟨-, hmax, -⟩ := hv
  exact h.trans hmax

theorem commandOf_cfg (i : Instr) (s : State) : (commandOf i s).state.cfg = s.cfg := by
  rcases commandOf_state i s with e | ⟨_, _, -, -, -, e⟩ <;> rw [e]
  exact State.storeOutputs_cfg _ _

/-- Only SET_OUTPUTS has an effect of its own (41_commands.md R186). -/
theorem commandOf_state_of_ne {i : Instr} (h : ∀ addr payload, i ≠ .setOutputs addr payload)
    (s : State) : (commandOf i s).state = s := by
  rcases commandOf_state i s with e | ⟨addr, payload, hi, -⟩
  · exact e
  · exact absurd hi (h addr payload)

/-- Addressed to this board alone, a command has its effect and its response is started (41_commands.md R160). -/
theorem exec_own {i : Instr} {s t : State} {rc : Byte} {rp : List Byte}
    (ha : commandOf i s = { state := t, cmd := rc, payload := rp }) (hown : i.addr = s.cfg.boardAddr)
    (hc : i.addr ≠ s.cfg.broadcastAddr) (hv : Valid s.cfg) (hlen : rp.length ≤ 32) :
    exec i s = .next (t.withResponse rc rp) := by
  have cfg : t.cfg = s.cfg := by rw [← commandOf_cfg i s, ha]
  have fits : rp.length ≤ t.cfg.maxPayload.toNat := by
    rw [cfg]
    exact hv.fits hlen
  rw [exec_eq_dispatch, hown, dispatch_own (hown ▸ hc), ha, respond_of_fits fits]

/-- A command error's response holds two bytes (30_encoding.md R95). -/
theorem exec_own_error {i : Instr} {s : State} {code cmd : Byte}
    (he : commandOf i s = s.commandError code cmd) (hown : i.addr = s.cfg.boardAddr)
    (hc : i.addr ≠ s.cfg.broadcastAddr) (hv : Valid s.cfg) :
    exec i s = .next (s.withResponse s.cfg.rspError [code, cmd]) :=
  exec_own he hown hc hv (show 2 ≤ 32 by decide)

/-- On broadcast a command has its effect and nothing more (41_commands.md R162). -/
theorem exec_broadcast {i : Instr} {s t : State} (ht : (commandOf i s).state = t)
    (hc : i.addr = s.cfg.broadcastAddr) : exec i s = .next t := by
  rw [exec_eq_dispatch, hc, dispatch_broadcast, ht]

/-! ### PING -/

/-- STATUS is 1 or 0, as STALE (30_encoding.md R99). -/
theorem statusByte_eq (s : State) : s.statusByte = if s.ch.stale then 0x01 else 0x00 := by
  unfold State.statusByte
  cases s.ch.stale <;> rfl

theorem pingPayload_eq (s : State) : s.pingPayload =
    [s.cfg.protocolVersion, s.cfg.fwVersion.extractLsb' 0 8, s.cfg.fwVersion.extractLsb' 8 8,
      s.cfg.boardAddr, if s.ch.stale then 0x01 else 0x00] := by
  rw [State.pingPayload, le16_eq_extract, statusByte_eq]
  rfl

theorem commandOf_ping_nil (addr : Byte) (s : State) :
    commandOf (.ping addr []) s = { state := s, cmd := s.cfg.cmdPing, payload := s.pingPayload } := rfl

/-- PING carries no payload (41_commands.md R167). -/
theorem commandOf_ping_badLength {payload : List Byte} (h : payload ≠ []) (addr : Byte) (s : State) :
    commandOf (.ping addr payload) s = s.commandError s.cfg.errBadLength s.cfg.cmdPing := by
  simp [commandOf, pingCommand, h]

/-- Settles O11: the success answer is R98's five bytes, and PING has no effect of its own. -/
theorem pingAnswers : Obligations.PingAnswers := by
  intro s addr payload hv
  refine ⟨?_, ?_, ?_⟩
  · rintro hown hc rfl
    rw [← pingPayload_eq]
    exact exec_own (commandOf_ping_nil addr s) hown hc hv (show 5 ≤ 32 by decide)
  · intro hown hc hne
    exact exec_own_error (commandOf_ping_badLength hne addr s) hown hc hv
  · exact exec_broadcast (commandOf_state_of_ne (i := .ping addr payload) (fun _ _ => nofun) s)

/-! ### READ_INPUTS -/

theorem commandOf_readInputs_nil (addr : Byte) (s : State) :
    commandOf (.readInputs addr []) s =
      { state := s, cmd := s.cfg.cmdReadInputs, payload := channelBytes s.rawInputs } := rfl

/-- READ_INPUTS carries no payload (41_commands.md R172). -/
theorem commandOf_readInputs_badLength {payload : List Byte} (h : payload ≠ []) (addr : Byte)
    (s : State) :
    commandOf (.readInputs addr payload) s = s.commandError s.cfg.errBadLength s.cfg.cmdReadInputs := by
  simp [commandOf, readInputsCommand, h]

/-- The response lays out the 16 raw values, low byte first (30_encoding.md R93). -/
theorem channelBytes_rawInputs (s : State) : channelBytes s.rawInputs =
    (List.finRange channelCount).flatMap fun i =>
      [s.ch.inputs[i].raw.extractLsb' 0 8, s.ch.inputs[i].raw.extractLsb' 8 8] := by
  have raw (i : Fin channelCount) : s.rawInputs[i] = s.ch.inputs[i].raw := by simp [State.rawInputs]
  simp only [channelBytes_eq_valuesPayload, valuesPayload, raw]

/-- Settles O12: the success answer is R93's layout, and READ_INPUTS has no effect of its own. -/
theorem readInputsAnswers : Obligations.ReadInputsAnswers := by
  intro s addr payload hv
  refine ⟨?_, ?_, ?_⟩
  · rintro hown hc rfl
    rw [← channelBytes_rawInputs]
    exact exec_own (commandOf_readInputs_nil addr s) hown hc hv (channelBytes_length _).le
  · intro hown hc hne
    exact exec_own_error (commandOf_readInputs_badLength hne addr s) hown hc hv
  · exact exec_broadcast (commandOf_state_of_ne (i := .readInputs addr payload) (fun _ _ => nofun) s)

/-! ### SET_OUTPUTS -/

/-- The payload that lays out 16 values in range is read back as those values, and they are stored (41_commands.md R175). -/
theorem commandOf_setOutputs_valuesPayload {s : State} {d : ChannelValues}
    (hd : ∀ i : Fin channelCount, d[i] ≤ s.cfg.maxDuty) (addr : Byte) :
    commandOf (.setOutputs addr (valuesPayload d)) s =
      { state := s.storeOutputs d, cmd := s.cfg.cmdSetOutputs, payload := [] } := by
  have inRange : ¬ OutOfRange s.cfg d := fun ⟨i, hi⟩ => BitVec.not_lt.mpr (hd i) hi
  rw [← channelBytes_eq_valuesPayload]
  simp [commandOf, setOutputsCommand, channelBytes_length, dutyValues_channelBytes, inRange]

/-- Settles O13: the values read are the values laid out, and only the addressed frame is acknowledged. -/
theorem setOutputsStoresAndAcknowledges : Obligations.SetOutputsStoresAndAcknowledges := by
  intro s addr d hv hd
  have stored := commandOf_setOutputs_valuesPayload hd addr
  constructor
  · intro hown hc
    exact exec_own stored hown hc hv (Nat.zero_le _)
  · exact exec_broadcast (congrArg Answer.state stored)

end Sys2Proof.Machine
end
section
/-! PROOFS. What this board sends (30_encoding.md R101): every part of a pass keeps the transmissions so far, and the one that
waits, frames of this board. -/
namespace Sys2Proof.Machine

/-- `frame(BOARD_ADDR, rc, rp)` is a frame of this board wherever its payload fits (40_frame_codec.md R140). -/
theorem ownFrame_frameBytes {p : Params} {rp : List Byte} (h : rp.length ≤ p.maxPayload.toNat)
    (rc : Byte) : OwnFrame p (frameBytes p p.boardAddr rc rp) := ⟨rc, rp, h, rfl⟩

/-- What is sent after `s` extends what was sent before it, so only the appended transmissions and the waiting one are new. -/
theorem SendsOwnFrames.append {s t : State} {es : List Event} (h : SendsOwnFrames s)
    (cfg : t.cfg = s.cfg) (trace : t.trace = s.trace ++ es)
    (sent : ∀ bs, Event.tx bs ∈ es → OwnFrame s.cfg bs)
    (waiting : t.tx.phase = .turnaround → OwnFrame s.cfg (t.tx.buf.take t.tx.len)) :
    SendsOwnFrames t where
  sent bs hbs := by
    rw [trace, List.mem_append] at hbs
    rw [cfg]
    exact hbs.elim (h.sent bs) (sent bs)
  waiting hphase := by
    rw [cfg]
    exact waiting hphase

/-- Receiver events, receiver registers and OUT are no transmission. -/
theorem SendsOwnFrames.receive {s : State} (h : SendsOwnFrames s) (rx : Receiver) (n : Nat)
    (es : List RxEvent) (out : ChannelValues) :
    SendsOwnFrames { s with rx := rx, freeCount := n, trace := s.trace ++ es.map Event.rx,
                            ch := { s.ch with out := out } } :=
  h.append rfl rfl (by simp) h.waiting

/-- The encoder puts into TXBUF the whole of a frame of this board, or nothing (42_control_loop.md R196). -/
theorem SendsOwnFrames.respond {s : State} (h : SendsOwnFrames s) (rc : Byte) (rp : List Byte) :
    SendsOwnFrames (s.respond rc rp) := by
  rcases respond_cases rc rp s with e | ⟨hfits, e⟩ <;> rw [e]
  · exact ⟨h.sent, h.waiting⟩
  · refine h.append (es := [.dir .transmit]) rfl rfl (by simp) fun _ => ?_
    simpa [State.withResponse] using ownFrame_frameBytes hfits rc

theorem SendsOwnFrames.drainByte {b : Byte} {s t : State} (h : SendsOwnFrames s)
    (hb : drainByte b s = .next t) : SendsOwnFrames t := by
  rcases drainByte_shape hb with ⟨rx, n, es, rfl, -⟩ | ⟨-, rx, n, es, out, -, rfl⟩ |
    ⟨-, -, rx, n, es, out, rc, rp, -, rfl⟩
  · exact h.receive rx n es s.ch.out
  · exact h.receive rx n es out
  · exact (h.receive rx n es out).respond rc rp

/-- The one part that transmits sends the frame that waited (42_control_loop.md R197). -/
theorem SendsOwnFrames.turnaroundStep {s t : State} (h : SendsOwnFrames s)
    (ht : turnaroundStep s = .next t) : SendsOwnFrames t := by
  rcases turnaroundStep_cases ht with e | ⟨hphase, -, e⟩ <;> rw [e]
  · exact ⟨h.sent, h.waiting⟩
  · refine h.append (es := [.tx (s.tx.buf.take s.tx.len)]) rfl rfl ?_ nofun
    simpa using h.waiting hphase

theorem SendsOwnFrames.drainStep {s : State} (h : SendsOwnFrames s) (complete : Bool) :
    SendsOwnFrames (drainStep complete s) := by
  rcases drainStep_cases complete s with e | ⟨-, -, e⟩ <;> rw [e]
  · exact h
  · exact h.append (es := [.dir .receive]) rfl rfl (by simp) nofun

theorem SendsOwnFrames.takeSample {s : State} (h : SendsOwnFrames s) (result : Option ChannelValues) :
    SendsOwnFrames (s.takeSample result) := by
  cases result with
  | none => rw [takeSample_none]; exact h.append rfl rfl (by simp) h.waiting
  | some v => rw [takeSample_some]; exact h.append rfl rfl (by simp) h.waiting

theorem SendsOwnFrames.sampleStep {s : State} (h : SendsOwnFrames s) (result : Option ChannelValues) :
    SendsOwnFrames (sampleStep result s) := by
  have counted (n : Nat) : SendsOwnFrames { s with freeCount := n } := ⟨h.sent, h.waiting⟩
  rcases sampleStep_cases result s with ⟨n, e⟩ | ⟨n, e⟩ <;> rw [e]
  · exact counted n
  · exact (counted n).takeSample result

theorem SendsOwnFrames.pwmRefresh {s : State} (h : SendsOwnFrames s) :
    SendsOwnFrames (pwmRefresh s) := by
  rcases pwmRefresh_cases s with ⟨-, -, e⟩ | e <;> rw [e]
  · exact h
  · exact h.append rfl rfl (by simp) h.waiting

theorem SendsOwnFrames.timeoutCheck {s : State} (h : SendsOwnFrames s) :
    SendsOwnFrames s.timeoutCheck := by
  obtain ⟨rx, n, es, e, -⟩ := timeoutCheck_shape s
  rw [e]
  exact h.receive rx n es s.ch.out

theorem sendsOwnFrames_keptByParts : KeptByParts SendsOwnFrames where
  begins h := ⟨h.sent, h.waiting⟩
  byte := .drainByte
  turnaround := .turnaroundStep
  finish complete h := h.drainStep complete
  sample result h := h.sampleStep result
  refresh := .pwmRefresh
  sweep := .timeoutCheck

/-- Settles O46: a response enters TXBUF as a frame of this board, and only the turnaround step sends, sending that frame. -/
theorem passSendsOwnFrames : Obligations.PassSendsOwnFrames :=
  fun _ _ => sendsOwnFrames_keptByParts.step

end Sys2Proof.Machine
end
section
/-! PROOFS. The receiver, one byte at a time (40_frame_codec.md R120-R130): what the timeout check and each phase's transition
do. -/
namespace Sys2Proof.Machine

/-- Settles O3: only a payload that does not fit is refused, and a frame's length is its parts' (30_encoding.md R82). -/
theorem encodeFailsOnlyWhenTooLong : Obligations.EncodeFailsOnlyWhenTooLong := by
  intro p addr cmd payload
  refine ⟨by simp [encodeFrame], fun f hf => ?_⟩
  obtain ⟨-, rfl⟩ := encodeFrame_eq_some_iff.mp hf
  exact frameBytes_length p addr cmd payload

/-! ### The timeout check -/

/-- Mid-frame the check is the one comparison of 40_frame_codec.md R121. -/
theorem timeoutCheck_of_midFrame {s : State} (hc : s.clockOk = true) (h : s.rx.phase ≠ .idle) :
    s.timeoutCheck =
      if s.cfg.interbyteTimeout < elapsed s.cfg.tickW s.now s.rx.lastTick then s.transportError .timeout
      else s := by
  rw [State.timeoutCheck, if_neg h, readElapsed_of_clockOk hc]

/-- Settles O23: Idle is left alone, and mid-frame the comparison decides. -/
theorem timeoutFiresOnlyWhenExceeded : Obligations.TimeoutFiresOnlyWhenExceeded := by
  refine fun s hc => ⟨timeoutCheck_of_idle, fun hmid hle => ?_, fun hmid hgt => ?_⟩
  · rw [timeoutCheck_of_midFrame hc hmid, if_neg hle.not_gt]
  · rw [timeoutCheck_of_midFrame hc hmid, if_pos hgt]

/-! ### The transition of each phase -/

/-- One transition as a change of receiver registers and the observation. -/
theorem rxTransition_receiverStep (b : Byte) (s : State) :
    ∃ es, ReceiverStep s (s.rxTransition b).2 es := by
  rcases rxTransition_cases b s with ⟨-, k, -⟩ | ⟨_, -, k, -⟩ | ⟨-, -, k, -⟩
  exacts [⟨_, k⟩, ⟨_, k⟩, ⟨_, k⟩]

section
variable {s : State} (b : Byte)

theorem rxTransition_idle (h : s.rx.phase = .idle) : s.rxTransition b = (none, s.rxIdle b) := by
  simp [State.rxTransition, h]

theorem rxTransition_gotAddress (h : s.rx.phase = .gotAddress) :
    s.rxTransition b = (none, { s with rx := { s.rx with addr := b, phase := .gotCommand } }) := by
  simp [State.rxTransition, h, State.rxGotAddress]

theorem rxTransition_gotCommand (h : s.rx.phase = .gotCommand) :
    s.rxTransition b = (none, { s with rx := { s.rx with cmd := b, phase := .gotLength } }) := by
  simp [State.rxTransition, h, State.rxGotCommand]

theorem rxTransition_gotLength (h : s.rx.phase = .gotLength) :
    s.rxTransition b = (none, s.rxGotLength b) := by
  simp [State.rxTransition, h]

theorem rxTransition_payload (h : s.rx.phase = .payload) :
    s.rxTransition b = (none, s.rxPayload b) := by
  simp [State.rxTransition, h]

/-- The first of two CRC bytes is held (40_frame_codec.md R127). -/
theorem rxTransition_firstCrc (h : s.rx.phase = .gotCrc) (hp : s.cfg.crcProfile = .crc16)
    (hj : s.rx.j = false) : s.rxTransition b = (none, s.rxFirstCrc b) := by
  simp [State.rxTransition, h, hp, hj]

theorem rxTransition_lastCrc (h : s.rx.phase = .gotCrc)
    (hj : s.cfg.crcProfile = .crc16 → s.rx.j = true) : s.rxTransition b = s.rxLastCrc b := by
  simp only [State.rxTransition, h]
  rw [if_neg]
  rintro ⟨hp, hfirst⟩
  simp [hj hp] at hfirst

variable {b}

theorem rxGotLength_of_fits (h : b ≤ s.cfg.maxPayload) : s.rxGotLength b =
    { s with rx := { s.rx with
        len := b, k := 0, j := false, phase := if b = 0 then .gotCrc else .payload } } := by
  rw [State.rxGotLength, if_neg (BitVec.not_lt.mpr h)]

theorem rxGotLength_of_oversize (h : s.cfg.maxPayload < b) :
    s.rxGotLength b = s.transportError .oversize := by
  rw [State.rxGotLength, if_pos h]

theorem rxPayload_of_last (h : s.rx.k + 1 = s.rx.len) : s.rxPayload b =
    { s with rx := { s.rx with
        buf := s.rx.buf.set s.rx.k.toNat b, k := s.rx.k + 1, phase := .gotCrc, j := false } } := by
  simp only [State.rxPayload, if_pos h]

theorem rxPayload_of_more (h : s.rx.k + 1 ≠ s.rx.len) : s.rxPayload b =
    { s with rx := { s.rx with buf := s.rx.buf.set s.rx.k.toNat b, k := s.rx.k + 1 } } := by
  simp only [State.rxPayload, if_neg h]

end

/-- Settles O24, phase by phase. -/
theorem headerBytesAreTakenUnchecked : Obligations.HeaderBytesAreTakenUnchecked := by
  refine fun b s => ⟨fun h hb => ?_, fun h hb => ?_, rxTransition_gotAddress b, rxTransition_gotCommand b⟩
  · rw [rxTransition_idle b h, State.rxIdle, if_pos hb]
  · rw [rxTransition_idle b h, State.rxIdle, if_neg hb]

/-- Settles O25: within MAX_PAYLOAD only the next phase depends on the byte being 0. -/
theorem lengthByteIsBounded : Obligations.LengthByteIsBounded := by
  refine fun b s h => ⟨fun hover => ?_, fun hfits hzero => ?_, fun hfits hne => ?_⟩ <;>
    rw [rxTransition_gotLength b h]
  · rw [rxGotLength_of_oversize hover]
  · rw [rxGotLength_of_fits hfits, if_pos hzero, hzero]
  · rw [rxGotLength_of_fits hfits, if_neg hne]

/-- RX_K counts one byte without wrapping, being below RX_LEN. -/
theorem toNat_succ_of_lt {k len : Byte} (h : k < len) : (k + 1).toNat = k.toNat + 1 := by
  have := len.isLt
  rw [BitVec.lt_def] at h
  rw [BitVec.toNat_add]
  exact Nat.mod_eq_of_lt (by simp; omega)

/-- Settles O26: the byte is stored first; then the count decides the phase. -/
theorem payloadByteIsStored : Obligations.PayloadByteIsStored := by
  intro b s h hk hlen hbuf
  have hin : s.rx.k.toNat < s.rx.buf.length := by
    rw [BitVec.lt_def] at hk
    rw [BitVec.le_def] at hlen
    omega
  refine ⟨s.rxPayload b, rxTransition_payload b h, ?_⟩
  have hcount := toNat_succ_of_lt hk
  by_cases hlast : s.rx.k + 1 = s.rx.len
  · rw [rxPayload_of_last hlast]
    exact ⟨List.getElem?_set_self hin, fun k hne => List.getElem?_set_ne (Ne.symm hne), hcount,
      fun _ => ⟨rfl, rfl⟩, absurd hlast, rfl, rfl, rfl, rfl, rfl, rfl⟩
  · rw [rxPayload_of_more hlast]
    exact ⟨List.getElem?_set_self hin, fun k hne => List.getElem?_set_ne (Ne.symm hne), hcount,
      fun heq => absurd heq hlast, fun _ => ⟨h, rfl⟩, rfl, rfl, rfl, rfl, rfl, rfl⟩

/-! ### The CRC bytes -/

/-- The CRC bytes received, once `b` is the last of them (40_frame_codec.md R128). -/
def State.receivedCrc (b : Byte) (s : State) : List Byte :=
  match s.cfg.crcProfile with
  | .crc8 => [b]
  | .crc16 => [s.rx.crc, b]

/-- The CRC field that the held header and payload call for (30_encoding.md R84). -/
def State.heldCrcField (s : State) : List Byte :=
  crcField s.cfg ([s.rx.addr, s.rx.cmd, s.rx.len] ++ s.rx.heldPayload)

/-- The receiver compares words; bytes in the order of the field compare alike (30_encoding.md R85, R86). -/
theorem crcMatches_iff (b : Byte) (s : State) :
    s.crcMatches b = true ↔ s.receivedCrc b = s.heldCrcField := by
  unfold State.crcMatches State.receivedCrc State.heldCrcField crcField
  cases s.cfg.crcProfile with
  | crc8 => simp
  | crc16 => simp [u16_eq_iff]

/-- The state that holds a completed frame (40_frame_codec.md R128). -/
def State.frameCompleted (s : State) : State :=
  { s with rx := { s.rx with phase := .idle, j := false }, trace := s.trace ++ [.rx .frameOk] }

/-- The last CRC byte completes the frame or is ERR_CRC (40_frame_codec.md R128, R129). -/
theorem rxLastCrc_eq (b : Byte) (s : State) : s.rxLastCrc b =
    if s.receivedCrc b = s.heldCrcField then
      (some { addr := s.rx.addr, cmd := s.rx.cmd, payload := s.rx.heldPayload }, s.frameCompleted)
    else (none, s.transportError .crc) := by
  simp only [State.rxLastCrc, crcMatches_iff, State.frameCompleted]

/-- Settles O27: whichever the profile, the byte is the last one, and the received bytes are those of `receivedCrc`. -/
theorem crcByteCompletesOrRejects : Obligations.CrcByteCompletesOrRejects := by
  refine fun b s h => ⟨rxTransition_firstCrc b h, fun received hr => ?_⟩
  have hlast : (s.cfg.crcProfile = .crc16 → s.rx.j = true) ∧ received = s.receivedCrc b := by
    rcases hr with ⟨hp, rfl⟩ | ⟨hp, hj, rfl⟩ <;> simp [State.receivedCrc, *]
  obtain ⟨hj, rfl⟩ := hlast
  rw [rxTransition_lastCrc b h hj, rxLastCrc_eq]
  exact ⟨fun heq => if_pos heq, fun hne => if_neg hne⟩

/-! ### The way back to Idle -/

/-- Settles O28: the timeout check and the transition each reach Idle from another phase with an event only. -/
theorem onlyEventsEndAFrame : Obligations.OnlyEventsEndAFrame := by
  intro b s hmid hidle
  rw [State.rxByte] at hidle ⊢
  rcases timeoutCheck_cases s with ⟨hrx, checked⟩ | ⟨-, -, checked⟩
  · rcases rxTransition_cases b s.timeoutCheck.touchRx with
      ⟨-, -, hback⟩ | ⟨r, -, moved, -⟩ | ⟨-, -, moved, -⟩
    · exact absurd (hback hidle) (by simpa [hrx] using hmid)
    · exact ⟨[], .error r, [], by simp [moved.trace, checked.trace], .inr ⟨r, rfl⟩⟩
    · exact ⟨[], .frameOk, [], by simp [moved.trace, checked.trace], .inl rfl⟩
  · obtain ⟨es, moved⟩ := rxTransition_receiverStep b s.timeoutCheck.touchRx
    exact ⟨[], .error .timeout, es.map Event.rx, by simp [moved.trace, checked.trace], .inr ⟨_, rfl⟩⟩

end Sys2Proof.Machine
end
section
/-! PROOFS. The receiver without its clock (40_frame_codec.md R120): where no gap is too long, feeding bytes in passes of their own
and draining them in one pass are both the transitions alone, with LAST_RX_TICK set beside them. -/
namespace Sys2Proof.Machine

/-! ### The transitions alone -/

/-- The frames and the state that the transitions of the bytes give, whatever the clock says. -/
def receive : List Byte → State → List Frame × State
  | [], s => ([], s)
  | b :: q, s =>
    ((s.rxTransition b).1.toList ++ (receive q (s.rxTransition b).2).1,
      (receive q (s.rxTransition b).2).2)

@[simp] theorem receive_nil (s : State) : receive [] s = ([], s) := rfl

theorem receive_cons (b : Byte) (q : List Byte) (s : State) : receive (b :: q) s =
    ((s.rxTransition b).1.toList ++ (receive q (s.rxTransition b).2).1,
      (receive q (s.rxTransition b).2).2) := rfl

theorem receive_cons_quiet {b : Byte} {s t : State} (h : s.rxTransition b = (none, t)) (q : List Byte) :
    receive (b :: q) s = receive q t := by
  simp [receive_cons, h]

theorem receive_append {q : List Byte} {s t : State} (h : receive q s = ([], t)) (r : List Byte) :
    receive (q ++ r) s = receive r t := by
  induction q generalizing s with
  | nil => cases h; rfl
  | cons b q ih =>
    obtain ⟨hfirst, hrest⟩ := Prod.ext_iff.mp h
    obtain ⟨hnone, hquiet⟩ := List.append_eq_nil_iff.mp hfirst
    rw [List.cons_append, receive_cons, ih (Prod.ext hquiet hrest), hnone]
    rfl

theorem receive_receiverStep (q : List Byte) (s : State) : ∃ es, ReceiverStep s (receive q s).2 es := by
  induction q generalizing s with
  | nil => exact ⟨[], .refl s⟩
  | cons b q ih =>
    obtain ⟨es, first⟩ := rxTransition_receiverStep b s
    obtain ⟨fs, rest⟩ := ih (s.rxTransition b).2
    exact ⟨es ++ fs, first.trans rest⟩

/-! ### The clock beside the transitions -/

/-- The state in which the last byte was heard at tick `t`, the tick of the current pass. -/
def State.heard (t : Nat) (s : State) : State := { s with now := t, rx := { s.rx with lastTick := t } }

theorem touchRx_eq_heard (s : State) : s.touchRx = s.heard s.now := rfl

/-- No transition reads or writes the tick of the pass or LAST_RX_TICK. -/
theorem rxTransition_heard (b : Byte) (t : Nat) (s : State) :
    (s.heard t).rxTransition b = ((s.rxTransition b).1, (s.rxTransition b).2.heard t) := by
  cases h : s.rx.phase with
  | idle =>
    rw [rxTransition_idle b h, rxTransition_idle (s := s.heard t) b h]
    simp only [State.rxIdle, apply_ite (State.heard t)]
    rfl
  | gotAddress => rw [rxTransition_gotAddress b h, rxTransition_gotAddress (s := s.heard t) b h]; rfl
  | gotCommand => rw [rxTransition_gotCommand b h, rxTransition_gotCommand (s := s.heard t) b h]; rfl
  | gotLength =>
    rw [rxTransition_gotLength b h, rxTransition_gotLength (s := s.heard t) b h]
    simp only [State.rxGotLength, apply_ite (State.heard t)]
    rfl
  | payload =>
    rw [rxTransition_payload b h, rxTransition_payload (s := s.heard t) b h]
    by_cases hlast : s.rx.k + 1 = s.rx.len
    · rw [rxPayload_of_last hlast, rxPayload_of_last (s := s.heard t) hlast]; rfl
    · rw [rxPayload_of_more hlast, rxPayload_of_more (s := s.heard t) hlast]; rfl
  | gotCrc =>
    by_cases hfirst : s.cfg.crcProfile = .crc16 ∧ s.rx.j = false
    · rw [rxTransition_firstCrc b h hfirst.1 hfirst.2,
        rxTransition_firstCrc (s := s.heard t) b h hfirst.1 hfirst.2]
      rfl
    · have hj : s.cfg.crcProfile = .crc16 → s.rx.j = true := by simpa using hfirst
      rw [rxTransition_lastCrc b h hj, rxTransition_lastCrc (s := s.heard t) b h hj,
        rxLastCrc_eq b s]
      split_ifs with hcrc
      · exact (rxLastCrc_eq b (s.heard t)).trans (if_pos hcrc)
      · exact (rxLastCrc_eq b (s.heard t)).trans (if_neg hcrc)

/-! ### Bytes in passes of their own (40_frame_codec.md R142) -/

theorem noLongGap_cons_cons {p : Params} {a b : Nat} {q : List Nat} :
    NoLongGap p (a :: b :: q) ↔ elapsed p.tickW b a ≤ p.interbyteTimeout ∧ NoLongGap p (b :: q) := Iff.rfl

theorem noLongGap_of_append {p : Params} {q r : List Nat} (h : NoLongGap p (q ++ r)) : NoLongGap p q := by
  induction q with
  | nil => trivial
  | cons a q ih =>
    cases q with
    | nil => trivial
    | cons b q =>
      obtain ⟨hgap, hrest⟩ := noLongGap_cons_cons.mp h
      exact noLongGap_cons_cons.mpr ⟨hgap, ih hrest⟩

/-- Where the timeout does not fire, a byte of its own pass is one transition. -/
theorem feed_cons {tick : Nat} {b : Byte} {s : State} (hc : s.clockOk = true)
    (h : s.rx.phase = .idle ∨ elapsed s.cfg.tickW tick s.rx.lastTick ≤ s.cfg.interbyteTimeout)
    (q : List (Nat × Byte)) : feed ((tick, b) :: q) s =
      ((s.rxTransition b).1.toList ++ (feed q ((s.rxTransition b).2.heard tick)).1,
        (feed q ((s.rxTransition b).2.heard tick)).2) := by
  have quiet : State.rxByte b { s with now := tick } = (s.heard tick).rxTransition b :=
    rxByte_of_noTimeout (s := { s with now := tick }) hc h
  simp only [feed, quiet, rxTransition_heard]

/-- Once a byte has been heard, the gaps alone keep the timeout from firing. -/
theorem feed_heard {q : List (Nat × Byte)} {t : Nat} {s : State} (hc : s.clockOk = true)
    (hgap : NoLongGap s.cfg (t :: q.map Prod.fst)) : ∃ t', feed q (s.heard t) =
      ((receive (q.map Prod.snd) s).1, (receive (q.map Prod.snd) s).2.heard t') := by
  induction q generalizing s t with
  | nil => exact ⟨t, rfl⟩
  | cons tb q ih =>
    obtain ⟨tick, b⟩ := tb
    obtain ⟨hfirst, hrest⟩ := noLongGap_cons_cons.mp hgap
    obtain ⟨_, k⟩ := rxTransition_receiverStep b s
    obtain ⟨t', e⟩ := ih (t := tick) (k.clockOk.trans hc) (by rwa [k.cfg])
    refine ⟨t', ?_⟩
    rw [feed_cons (s := s.heard t) hc (.inr hfirst), rxTransition_heard]
    exact congrArg (fun r : List Frame × State => ((s.rxTransition b).1.toList ++ r.1, r.2)) e

/-- From Idle the first byte may come at any tick. -/
theorem feed_of_ready {ticks : List Nat} {bytes : List Byte} {s : State} (hs : ReadyForFrame s)
    (hgap : NoLongGap s.cfg ticks) (hlen : ticks.length = bytes.length) (hne : bytes ≠ []) :
    ∃ t, feed (ticks.zip bytes) s = ((receive bytes s).1, (receive bytes s).2.heard t) := by
  obtain ⟨b, bytes, rfl⟩ := List.exists_cons_of_ne_nil hne
  obtain ⟨tick, ticks, rfl⟩ := List.exists_cons_of_length_eq_add_one hlen
  have hrest : ticks.length = bytes.length := Nat.succ.inj hlen
  obtain ⟨_, k⟩ := rxTransition_receiverStep b s
  obtain ⟨t, e⟩ := feed_heard (q := ticks.zip bytes) (t := tick) (k.clockOk.trans hs.clock)
    (by rwa [k.cfg, List.map_fst_zip hrest.le])
  rw [List.map_snd_zip hrest.ge] at e
  refine ⟨t, ?_⟩
  rw [List.zip_cons_cons, feed_cons hs.clock (.inl hs.idle), e]
  rfl

/-! ### Bytes in one pass (42_control_loop.md R192, R194) -/

/-- The drain gives its bytes to the receiver, and no time passes between them. -/
structure Listening (s : State) : Prop where
  clock : s.clockOk = true
  lineFree : s.tx.phase = .idle
  noResponse : s.responding = false
  tick : s.now < 2 ^ s.cfg.tickW

theorem ReadyToDrain.listening {s : State} (h : ReadyToDrain s) : Listening s :=
  ⟨h.clock, h.lineFree, h.noResponse, h.tick⟩

theorem Listening.receiverStep {s t : State} {es : List RxEvent} (h : Listening s)
    (k : ReceiverStep s t es) : Listening t where
  clock := k.clockOk.trans h.clock
  lineFree := by rw [k.tx, h.lineFree]
  noResponse := k.responding.trans h.noResponse
  tick := by rw [k.now, k.cfg]; exact h.tick

theorem Listening.not_dropping {s : State} (h : Listening s) : ¬ s.Dropping := by
  simp [h.lineFree, h.noResponse]

/-- No time has passed since a byte heard in this pass, so the next one is one transition. -/
theorem Listening.rxByte_touchRx {s : State} (h : Listening s) (b : Byte) :
    s.touchRx.rxByte b = ((s.rxTransition b).1, (s.rxTransition b).2.touchRx) := by
  have hnow : (s.rxTransition b).2.now = s.now := (rxTransition_receiverStep b s).choose_spec.now
  have hzero : elapsed s.cfg.tickW s.now s.now = 0 := elapsed_self h.tick
  rw [rxByte_of_noTimeout (s := s.touchRx) h.clock (.inr (hzero.trans_le (Nat.zero_le _))),
    touchRx_eq_heard (s.rxTransition b).2, hnow, ← rxTransition_heard]
  rfl

theorem Listening.drainByte_quiet {b : Byte} {s t : State} (hs : Listening s)
    (h : s.rxTransition b = (none, t)) : drainByte b s.touchRx = .next t.touchRx := by
  rw [drainByte, if_neg (show ¬ s.touchRx.Dropping from hs.not_dropping), hs.rxByte_touchRx, h]

theorem Listening.drainByte_frame {b : Byte} {s t : State} {f : Frame} (hs : Listening s)
    (h : s.rxTransition b = (some f, t)) : drainByte b s.touchRx = dispatchFrame f t.touchRx := by
  rw [drainByte, if_neg (show ¬ s.touchRx.Dropping from hs.not_dropping), hs.rxByte_touchRx, h]

/-- Bytes that complete no frame are drained by the transitions alone. -/
theorem Listening.drain_quiet {q : List Byte} {s t : State} (hs : Listening s)
    (h : receive q s = ([], t)) : drain q s.touchRx = .next t.touchRx := by
  induction q generalizing s with
  | nil => cases h; rfl
  | cons b q ih =>
    obtain ⟨_, k⟩ := rxTransition_receiverStep b s
    obtain ⟨hfirst, hrest⟩ := Prod.ext_iff.mp h
    obtain ⟨hnone, hquiet⟩ := List.append_eq_nil_iff.mp hfirst
    have quiet : s.rxTransition b = (none, (s.rxTransition b).2) :=
      Prod.ext (Option.toList_eq_nil_iff.mp hnone) rfl
    rw [drain_cons, hs.drainByte_quiet quiet, andThen_next]
    exact ih (hs.receiverStep k) (Prod.ext hquiet hrest)

/-- A byte that completes a frame hands it to the dispatcher before the bytes after it (40_frame_codec.md R131). -/
theorem Listening.drain_frame {q : List Byte} {b : Byte} {s t u : State} {f : Frame} (hs : Listening s)
    (hq : receive q s = ([], t)) (hb : t.rxTransition b = (some f, u)) (rest : List Byte) :
    drain (q ++ [b] ++ rest) s.touchRx = andThen (dispatchFrame f u.touchRx) (drain rest) := by
  have hu : Listening t := by
    obtain ⟨_, k⟩ := receive_receiverStep q s
    rw [hq] at k
    exact hs.receiverStep k
  rw [List.append_assoc, drain_append, hs.drain_quiet hq, andThen_next, List.singleton_append,
    drain_cons, hu.drainByte_frame hb]

/-- In Idle the tick of the last byte is not read, so the first byte of a drain sees a receiver that has just heard one. -/
theorem ReadyToDrain.drain_touchRx {q : List Byte} {s : State} (hs : ReadyToDrain s) (hne : q ≠ []) :
    drain q s = drain q s.touchRx := by
  obtain ⟨b, q, rfl⟩ := List.exists_cons_of_ne_nil hne
  have first : s.rxByte b = s.touchRx.rxByte b :=
    (rxByte_of_noTimeout hs.clock (.inl hs.idle)).trans
      (rxByte_of_noTimeout (s := s.touchRx) hs.clock (.inl hs.idle)).symm
  have dropping : ¬ s.Dropping := hs.listening.not_dropping
  rw [drain_cons, drain_cons, drainByte, drainByte, if_neg dropping,
    if_neg (show ¬ s.touchRx.Dropping from dropping), first]

end Sys2Proof.Machine
end
section
/-! PROOFS. Whole frames at the receiver (40_frame_codec.md R142, R143): an encoded frame, its CRC intact or not, from Idle to
Idle. -/
namespace Sys2Proof.Machine

/-! ### From START_BYTE to the CRC -/

/-- START_BYTE, ADDRESS and COMMAND, from Idle (40_frame_codec.md R122-R124). -/
theorem receive_header {s : State} (h : s.rx.phase = .idle) (addr cmd : Byte) (q : List Byte) :
    receive (s.cfg.startByte :: addr :: cmd :: q) s =
      receive q { s with rx := { s.rx with addr := addr, cmd := cmd, phase := .gotLength } } := by
  have start := (headerBytesAreTakenUnchecked s.cfg.startByte s).1 h rfl
  rw [receive_cons_quiet start, receive_cons_quiet (rxTransition_gotAddress addr rfl),
    receive_cons_quiet (rxTransition_gotCommand cmd rfl)]

/-- The receiver in the middle of a payload of length `len`, the bytes `held` of it received. -/
def State.awaitingPayload (addr cmd len : Byte) (held : List Byte) (s : State) : State :=
  { s with
    rx :=
      { phase := .payload
        addr := addr
        cmd := cmd
        len := len
        k := lengthByte held
        buf := held ++ s.rx.buf.drop held.length
        j := false
        crc := s.rx.crc
        lastTick := s.rx.lastTick } }

/-- The receiver once it holds a frame's covered bytes and the CRC bytes `first`, with one CRC byte to come. -/
def State.awaitingLastCrc (addr cmd : Byte) (payload first : List Byte) (s : State) : State :=
  { s with
    rx :=
      { phase := .gotCrc
        addr := addr
        cmd := cmd
        len := lengthByte payload
        k := lengthByte payload
        buf := payload ++ s.rx.buf.drop payload.length
        j := !first.isEmpty
        crc := first.headD s.rx.crc
        lastTick := s.rx.lastTick } }

theorem lengthByte_concat (held : List Byte) (b : Byte) :
    lengthByte (held ++ [b]) = lengthByte held + 1 := by
  simp [lengthByte, BitVec.ofNat_add]

/-- A byte stored after the held ones is held too. -/
theorem set_after_held {held buf : List Byte} (h : held.length < buf.length) (b : Byte) :
    (held ++ buf.drop held.length).set held.length b =
      held ++ [b] ++ buf.drop (held ++ [b]).length := by
  rw [List.set_append_right _ _ le_rfl, Nat.sub_self, List.drop_eq_getElem_cons h,
    List.set_cons_zero]
  simp

/-- A payload byte is held, and after the last one the CRC follows (40_frame_codec.md R126). -/
theorem rxPayload_awaitingPayload {s : State} {held rest : List Byte} {b : Byte}
    (hfits : (held ++ b :: rest).length ≤ s.cfg.maxPayload.toNat)
    (hbuf : s.rx.buf.length = s.cfg.maxPayload.toNat) (addr cmd : Byte) :
    (s.awaitingPayload addr cmd (lengthByte (held ++ b :: rest)) held).rxPayload b =
      if rest = [] then s.awaitingLastCrc addr cmd (held ++ [b]) []
      else s.awaitingPayload addr cmd (lengthByte (held ++ b :: rest)) (held ++ [b]) := by
  have hlen := lengthByte_toNat hfits
  rw [List.length_append, List.length_cons] at hfits hlen
  have hheld : (lengthByte held).toNat = held.length := lengthByte_toNat (p := s.cfg) (by omega)
  have hstored := set_after_held (held := held) (buf := s.rx.buf) (by omega) b
  have hcount := lengthByte_concat held b
  split_ifs with hrest
  · subst hrest
    rw [rxPayload_of_last hcount.symm]
    simp only [State.awaitingPayload, State.awaitingLastCrc, hheld, hstored, hcount]
    rfl
  · have hmore : lengthByte held + 1 ≠ lengthByte (held ++ b :: rest) := by
      rw [← hcount]
      intro heq
      have hpos := List.length_pos_of_ne_nil hrest
      have hnext := lengthByte_toNat (p := s.cfg) (payload := held ++ [b])
        (by rw [List.length_append, List.length_singleton]; omega)
      rw [heq, hlen, List.length_append, List.length_singleton] at hnext
      omega
    rw [rxPayload_of_more hmore]
    simp only [State.awaitingPayload, hheld, hstored, hcount]

theorem receive_payload {s : State} {held rest : List Byte} (hne : rest ≠ [])
    (hfits : (held ++ rest).length ≤ s.cfg.maxPayload.toNat)
    (hbuf : s.rx.buf.length = s.cfg.maxPayload.toNat) (addr cmd : Byte) :
    receive rest (s.awaitingPayload addr cmd (lengthByte (held ++ rest)) held) =
      ([], s.awaitingLastCrc addr cmd (held ++ rest) []) := by
  induction rest generalizing held with
  | nil => contradiction
  | cons b rest ih =>
    rw [receive_cons_quiet (rxTransition_payload b rfl), rxPayload_awaitingPayload hfits hbuf]
    split_ifs with hrest
    · rw [hrest, receive_nil]
    · have hsplit : held ++ b :: rest = held ++ [b] ++ rest := by simp
      rw [hsplit] at hfits ⊢
      exact ih hrest hfits

/-- START_BYTE and the covered bytes of a payload that fits, from Idle (40_frame_codec.md R122-R126). -/
theorem receive_covered {s : State} (hs : ReadyForFrame s) {payload : List Byte}
    (hfits : payload.length ≤ s.cfg.maxPayload.toNat) (addr cmd : Byte) :
    receive (s.cfg.startByte :: coveredBytes addr cmd payload) s =
      ([], s.awaitingLastCrc addr cmd payload []) := by
  have hlen := lengthByte_toNat hfits
  have hle : lengthByte payload ≤ s.cfg.maxPayload := by rwa [BitVec.le_def, hlen]
  have header := receive_header hs.idle addr cmd (lengthByte payload :: payload)
  rw [coveredBytes, List.cons_append, List.cons_append, List.singleton_append, header,
    receive_cons_quiet (rxTransition_gotLength _ rfl), rxGotLength_of_fits (by exact hle)]
  by_cases hempty : payload = []
  · subst hempty
    rfl
  · have hpos : lengthByte payload ≠ 0 := by
      intro hzero
      rw [hzero] at hlen
      exact hempty (List.length_eq_zero_iff.mp hlen.symm)
    rw [if_neg hpos]
    exact receive_payload (held := []) hempty hfits hs.buffer addr cmd

/-- All CRC bytes but the last: none under CRC8, one under CRC16 (40_frame_codec.md R127). -/
theorem receive_firstCrc {s : State} {first : List Byte} (hlen : first.length + 1 = s.cfg.crcProfile.bytes)
    (addr cmd : Byte) (payload : List Byte) :
    receive first (s.awaitingLastCrc addr cmd payload []) =
      ([], s.awaitingLastCrc addr cmd payload first) := by
  cases hp : s.cfg.crcProfile with
  | crc8 =>
    obtain rfl : first = [] := by simpa [hp, CrcProfile.bytes] using hlen
    rfl
  | crc16 =>
    obtain ⟨b, rfl⟩ : ∃ b, first = [b] := by
      simpa [hp, CrcProfile.bytes, List.length_eq_one_iff] using hlen
    exact receive_cons_quiet
      (rxTransition_firstCrc (s := s.awaitingLastCrc addr cmd payload []) b rfl hp rfl) []

/-- Everything but the last byte of a frame, whatever its CRC. -/
theorem receive_allButLast {s : State} (hs : ReadyForFrame s) {payload first : List Byte}
    (hfits : payload.length ≤ s.cfg.maxPayload.toNat) (hlen : first.length + 1 = s.cfg.crcProfile.bytes)
    (addr cmd : Byte) : receive (s.cfg.startByte :: coveredBytes addr cmd payload ++ first) s =
      ([], s.awaitingLastCrc addr cmd payload first) := by
  rw [receive_append (receive_covered hs hfits addr cmd), receive_firstCrc hlen]

/-! ### The last byte -/

section
variable {s : State} {payload first : List Byte} (addr cmd last : Byte)

theorem heldPayload_awaitingLastCrc (hfits : payload.length ≤ s.cfg.maxPayload.toNat) :
    (s.awaitingLastCrc addr cmd payload first).rx.heldPayload = payload := by
  simp [Receiver.heldPayload, State.awaitingLastCrc, lengthByte_toNat hfits]

theorem receivedCrc_awaitingLastCrc (hlen : first.length + 1 = s.cfg.crcProfile.bytes) :
    (s.awaitingLastCrc addr cmd payload first).receivedCrc last = first ++ [last] := by
  unfold State.receivedCrc
  cases hp : s.cfg.crcProfile with
  | crc8 =>
    obtain rfl : first = [] := by simpa [hp, CrcProfile.bytes] using hlen
    simp [State.awaitingLastCrc, hp]
  | crc16 =>
    obtain ⟨b, rfl⟩ : ∃ b, first = [b] := by
      simpa [hp, CrcProfile.bytes, List.length_eq_one_iff] using hlen
    simp [State.awaitingLastCrc, hp]

/-- The last byte of a frame completes it or is ERR_CRC (40_frame_codec.md R128, R129). -/
theorem rxTransition_awaitingLastCrc (hfits : payload.length ≤ s.cfg.maxPayload.toNat)
    (hlen : first.length + 1 = s.cfg.crcProfile.bytes) :
    (s.awaitingLastCrc addr cmd payload first).rxTransition last =
      if first ++ [last] = crcField s.cfg (coveredBytes addr cmd payload) then
        (some { addr := addr, cmd := cmd, payload := payload },
          (s.awaitingLastCrc addr cmd payload first).frameCompleted)
      else (none, (s.awaitingLastCrc addr cmd payload first).transportError .crc) := by
  have hj : s.cfg.crcProfile = .crc16 → (!first.isEmpty) = true := by
    intro hp
    cases first with
    | nil => simp [hp, CrcProfile.bytes] at hlen
    | cons => rfl
  have hfield : (s.awaitingLastCrc addr cmd payload first).heldCrcField =
      crcField s.cfg (coveredBytes addr cmd payload) := by
    rw [State.heldCrcField, heldPayload_awaitingLastCrc addr cmd hfits]
    rfl
  rw [rxTransition_lastCrc last rfl hj, rxLastCrc_eq, receivedCrc_awaitingLastCrc addr cmd last hlen,
    hfield, heldPayload_awaitingLastCrc addr cmd hfits]
  rfl

end

/-! ### The receiver's answer to a whole frame -/

/-- CRC bytes, taken apart as the receiver takes them: the last one, and the one before it if there is one. -/
theorem crcBytes_split {p : Params} {crc : List Byte} (h : crc.length = p.crcProfile.bytes) :
    ∃ first last, crc = first ++ [last] ∧ first.length + 1 = p.crcProfile.bytes := by
  have hne : crc ≠ [] := by
    rintro rfl
    cases hp : p.crcProfile <;> simp [hp, CrcProfile.bytes] at h
  have hsplit := (List.dropLast_append_getLast hne).symm
  exact ⟨crc.dropLast, crc.getLast hne, hsplit, by rw [← h, hsplit]; simp⟩

/-- A completed frame leaves the registers that `frameHeld` states (40_frame_codec.md R122-R128). -/
theorem frameCompleted_awaitingLastCrc {s : State} {addr cmd last : Byte} {payload first : List Byte}
    (hcrc : crcField s.cfg (coveredBytes addr cmd payload) = first ++ [last]) :
    (s.awaitingLastCrc addr cmd payload first).frameCompleted.touchRx =
      s.frameHeld (decodeCommand s.cfg addr cmd payload) := by
  obtain ⟨haddr, hcmd, hpayload⟩ := decodeCommand_fields s.cfg addr cmd payload
  have hheld : first.headD s.rx.crc = if s.cfg.crcProfile = .crc16 then
      (crc16 (coveredBytes addr cmd payload)).setWidth 8 else s.rx.crc := by
    have hfirst : first = (crcField s.cfg (coveredBytes addr cmd payload)).dropLast := by simp [hcrc]
    rw [hfirst, crcField]
    cases s.cfg.crcProfile <;> rfl
  simp only [State.frameHeld, State.awaitingLastCrc, State.frameCompleted, State.touchRx, haddr, hcmd,
    hpayload, hheld]

/-- The frame the encoder gives is returned at its last byte, and not before (40_frame_codec.md R128, R142). -/
theorem receive_frame {s : State} (hs : ReadyForFrame s) {payload : List Byte}
    (hfits : payload.length ≤ s.cfg.maxPayload.toNat) (addr cmd : Byte) :
    ∃ init last t u, frameBytes s.cfg addr cmd payload = init ++ [last] ∧ init ≠ [] ∧
      receive init s = ([], t) ∧ t.trace = s.trace ∧
      t.rxTransition last = (some { addr := addr, cmd := cmd, payload := payload }, u) ∧
      u.touchRx = s.frameHeld (decodeCommand s.cfg addr cmd payload) := by
  obtain ⟨first, last, hcrc, hlen⟩ :=
    crcBytes_split (crcField_length s.cfg (coveredBytes addr cmd payload))
  have hlast := rxTransition_awaitingLastCrc addr cmd last hfits hlen
  rw [if_pos hcrc.symm] at hlast
  exact ⟨_, last, _, _, by rw [frameBytes, hcrc, List.append_assoc], by simp,
    receive_allButLast hs hfits hlen addr cmd, rfl, hlast, frameCompleted_awaitingLastCrc hcrc⟩

/-- With wrong CRC bytes the same frame is ERR_CRC and changes receiver registers only (40_frame_codec.md R129). -/
theorem receive_badCrc {s : State} (hs : ReadyForFrame s) {payload crc : List Byte} {addr cmd : Byte}
    (hfits : payload.length ≤ s.cfg.maxPayload.toNat) (hlen : crc.length = s.cfg.crcProfile.bytes)
    (hbad : crc ≠ crcField s.cfg (coveredBytes addr cmd payload)) :
    ∃ t, receive (s.cfg.startByte :: coveredBytes addr cmd payload ++ crc) s = ([], t) ∧
      t.rx.phase = .idle ∧ ReceiverStep s t [.error .crc] := by
  obtain ⟨first, last, rfl, hfirst⟩ := crcBytes_split hlen
  refine ⟨(s.awaitingLastCrc addr cmd payload first).transportError .crc, ?_, rfl, by constructor <;> rfl⟩
  have hlast := rxTransition_awaitingLastCrc addr cmd last hfits hfirst
  rw [if_neg hbad] at hlast
  rw [← List.append_assoc, receive_append (receive_allButLast hs hfits hfirst addr cmd),
    receive_cons_quiet hlast, receive_nil]

/-! ### Round trip and bit flips -/

/-- Settles O29: in passes of their own the bytes are the transitions alone, which hold the frame back to its last byte. -/
theorem receiverRoundTrip : Obligations.ReceiverRoundTrip := by
  intro s addr cmd payload f ticks hs henc hlen hgap
  obtain ⟨hfits, rfl⟩ := encodeFrame_eq_some_iff.mp henc
  obtain ⟨init, last, t, u, hf, hne, hinit, htrace, hlast, hheld⟩ := receive_frame hs hfits addr cmd
  rw [hf] at hlen ⊢
  obtain ⟨_, whole⟩ := feed_of_ready hs hgap hlen (by simp)
  obtain ⟨before, tick, rfl⟩ : ∃ before tick, ticks = before ++ [tick] := by
    have hticks : ticks ≠ [] := by rintro rfl; simp at hlen
    exact ⟨_, _, (List.dropLast_append_getLast hticks).symm⟩
  have hlen' : before.length = init.length := by simpa using hlen
  obtain ⟨_, early⟩ := feed_of_ready hs (noLongGap_of_append hgap) hlen' hne
  rw [receive_append hinit, receive_cons, hlast, receive_nil] at whole
  rw [hinit] at early
  rw [whole, List.zip_append hlen', List.zip_cons_cons, List.zip_nil_left, List.dropLast_concat, early]
  exact ⟨rfl, htrace, rfl, congrArg State.trace hheld, congrArg (·.rx.phase) hheld⟩

/-- Inverting a bit changes the byte. -/
theorem xor_bit_ne {bit : Nat} (h : bit < 8) (b : Byte) : b ^^^ (1#8 <<< bit) ≠ b := by
  intro heq
  have := congrArg (·.getLsbD bit) heq
  simp [h] at this

/-- A covered byte other than LENGTH belongs to a frame of the same length. -/
theorem coveredBytes_set {k : Nat} (hk : k ≠ 2) (addr cmd b : Byte) (payload : List Byte) :
    ∃ addr' cmd' payload', payload'.length = payload.length ∧
      (coveredBytes addr cmd payload).set k b = coveredBytes addr' cmd' payload' := by
  match k with
  | 0 => exact ⟨b, cmd, payload, rfl, rfl⟩
  | 1 => exact ⟨addr, b, payload, rfl, rfl⟩
  | 2 => contradiction
  | k + 3 => exact ⟨addr, cmd, payload.set k b, by simp, by simp [coveredBytes, lengthByte]⟩

/-- One changed byte shows in the CRC field (40_frame_codec.md R143). -/
theorem crcField_set_ne {k : Nat} {bytes : List Byte} {b : Byte} (hk : k < bytes.length)
    (hb : b ≠ bytes[k]) (p : Params) : crcField p (bytes.set k b) ≠ crcField p bytes := by
  have hsplit : bytes = bytes.take k ++ bytes[k] :: bytes.drop (k + 1) := by simp
  rw [List.set_eq_take_append_cons_drop, if_pos hk]
  conv_rhs => rw [hsplit]
  exact crcTellsOneByteApart p _ _ b bytes[k] hb

theorem coveredBytes_length (addr cmd : Byte) (payload : List Byte) :
    (coveredBytes addr cmd payload).length = 3 + payload.length := by
  rw [coveredBytes, List.length_append]
  rfl

/-- A bit of a frame inverted before its CRC, outside START_BYTE, is a bit of the covered bytes inverted. -/
theorem flipBit_frameBytes {k : Nat} {payload : List Byte} (hk : k < 3 + payload.length) (bit : Nat)
    (p : Params) (addr cmd : Byte) : flipBit (k + 1) bit (frameBytes p addr cmd payload) =
      p.startByte :: flipBit k bit (coveredBytes addr cmd payload) ++
        crcField p (coveredBytes addr cmd payload) := by
  have hin : k < (coveredBytes addr cmd payload).length := by
    rw [coveredBytes_length]
    omega
  simp [flipBit, frameBytes, List.set_append_left _ _ hin, List.getElem?_append_left hin]

/-- Settles O30: the flipped frame is another frame of the same length, whose CRC field is not the one received. -/
theorem singleBitFlipIsRejected : Obligations.SingleBitFlipIsRejected := by
  intro s addr cmd payload f ticks k bit hs henc hlen hgap hk hbit
  obtain ⟨hfits, rfl⟩ := encodeFrame_eq_some_iff.mp henc
  obtain ⟨k, rfl⟩ : ∃ j, k = j + 1 := ⟨k - 1, by omega⟩
  have hin : k < (coveredBytes addr cmd payload).length := by
    rw [coveredBytes_length]
    omega
  have hcrc := crcField_set_ne hin (xor_bit_ne hbit _) s.cfg
  obtain ⟨addr', cmd', payload', hpayload, hset⟩ := coveredBytes_set (k := k) (by omega) addr cmd
    ((coveredBytes addr cmd payload)[k] ^^^ (1#8 <<< bit)) payload
  have hflip : flipBit (k + 1) bit (frameBytes s.cfg addr cmd payload) =
      s.cfg.startByte :: coveredBytes addr' cmd' payload' ++
        crcField s.cfg (coveredBytes addr cmd payload) := by
    rw [flipBit_frameBytes (by omega), flipBit, List.getD_eq_getElem _ _ hin, hset]
  rw [hset] at hcrc
  obtain ⟨t, hreceive, hidle, hstep⟩ :=
    receive_badCrc hs (by rwa [hpayload]) (crcField_length s.cfg _) hcrc.symm
  rw [← hflip] at hreceive
  have hlen' : ticks.length = (flipBit (k + 1) bit (frameBytes s.cfg addr cmd payload)).length := by
    simpa [flipBit] using hlen
  obtain ⟨_, fed⟩ := feed_of_ready hs hgap hlen' (by simp [hflip])
  rw [fed, hreceive]
  exact ⟨rfl, hstep.trace, hidle⟩

end Sys2Proof.Machine
end
section
/-! PROOFS. Noise, frames and bad frames in one drain (42_control_loop.md R192, R194; 40_frame_codec.md R122, R125, R129). -/
namespace Sys2Proof.Machine

theorem receive_noise {bytes : List Byte} {s : State} (h : s.rx.phase = .idle)
    (hnoise : s.cfg.startByte ∉ bytes) : receive bytes s = ([], s) := by
  induction bytes with
  | nil => rfl
  | cons b q ih =>
    obtain ⟨hb, hq⟩ := not_or.mp (List.mem_cons.not.mp hnoise)
    obtain ⟨-, skip, -⟩ := headerBytesAreTakenUnchecked b s
    rw [receive_cons_quiet (skip h (Ne.symm hb)), ih hq]

/-- Settles O31: the transitions leave the state as it is, and the drain sets the tick. -/
theorem noiseIsSkipped : Obligations.NoiseIsSkipped := by
  intro bytes s hs hnoise hne
  rw [hs.drain_touchRx hne, hs.listening.drain_quiet (receive_noise hs.idle hnoise)]
  rfl

/-- Settles O33: the last byte of the frame completes it, and hands it to the dispatcher there and then. -/
theorem drainRunsFrameBeforeNextByte : Obligations.DrainRunsFrameBeforeNextByte := by
  intro bytes rest i s hs hdecode
  obtain ⟨addr, cmd, payload, hfits, rfl, rfl⟩ := decode_eq_ok_iff.mp hdecode
  obtain ⟨init, last, t, u, hf, -, hinit, -, hlast, hheld⟩ :=
    receive_frame hs.toReadyForFrame hfits addr cmd
  rw [hf, hs.drain_touchRx (by simp), hs.listening.drain_frame hinit hlast, hheld]
  rfl

/-- What a bad CRC is: a LENGTH within the bound, and bytes after the payload that are not its CRC field (30_encoding.md R103). -/
theorem bytes_of_decode_badCrc {p : Params} {addr cmd len : Byte} {body : List Byte}
    (hlen : body.length = len.toNat + p.crcProfile.bytes)
    (h : decode p (p.startByte :: addr :: cmd :: len :: body) = .error .badCrc) :
    ∃ payload crc, payload.length ≤ p.maxPayload.toNat ∧ crc.length = p.crcProfile.bytes ∧
      crc ≠ crcField p (coveredBytes addr cmd payload) ∧
      addr :: cmd :: len :: body = coveredBytes addr cmd payload ++ crc := by
  have hlength := lengthByte_take (len := len) (bytes := body) (by omega)
  have hcrc : (body.drop len.toNat).length = p.crcProfile.bytes := by simp [hlen]
  rw [decode] at h
  split_ifs at h with hstart hover hshort hgood
  · cases h
  · cases h
  · cases h
  refine ⟨body.take len.toNat, body.drop len.toNat, ?_, hcrc, ?_, ?_⟩
  · rw [BitVec.lt_def] at hover
    rw [List.length_take]
    omega
  · rwa [coveredBytes, hlength, ← List.take_of_length_le hcrc.le]
  · simp [coveredBytes, hlength]

/-- Settles O36: the transitions end in ERR_CRC, and no byte of the drain reaches the dispatcher. -/
theorem badCrcFrameIsDiscarded : Obligations.BadCrcFrameIsDiscarded := by
  intro addr cmd len body s hs hlen hdecode
  obtain ⟨payload, crc, hfits, hcrclen, hbad, hbytes⟩ := bytes_of_decode_badCrc hlen hdecode
  obtain ⟨t, hreceive, hidle, hstep⟩ := receive_badCrc hs.toReadyForFrame hfits hcrclen hbad
  rw [hbytes, hs.drain_touchRx (by simp)]
  exact ⟨t.touchRx, hs.listening.drain_quiet hreceive, hstep.trace, hstep.tx, hstep.ch, hidle⟩

/-- Settles O37: the four bytes are ERR_OVERSIZE, and the receiver that scans the rest is ready for a frame. -/
theorem oversizeResynchronises : Obligations.OversizeResynchronises := by
  intro addr cmd len rest s hs hover
  have header : receive [s.cfg.startByte, addr, cmd, len] s = ([], State.transportError .oversize
      { s with rx := { s.rx with addr := addr, cmd := cmd, phase := .gotLength } }) := by
    rw [receive_header hs.idle addr cmd [len], receive_cons_quiet (rxTransition_gotLength len rfl),
      rxGotLength_of_oversize (by exact hover)]
    rfl
  have drained := hs.listening.drain_quiet header
  rw [show s.cfg.startByte :: addr :: cmd :: len :: rest = [s.cfg.startByte, addr, cmd, len] ++ rest from rfl,
    hs.drain_touchRx (by simp), drain_append, drained]
  rfl

end Sys2Proof.Machine
end
section
/-! PROOFS. Recovery from a frame broken off (40_frame_codec.md R121, R144; 42_control_loop.md R204): the timeout at the next
frame's first byte, and the sweep that ends every pass. -/
namespace Sys2Proof.Machine

/-! ### At the first byte of the next frame -/

/-- A byte after too long a silence is the first byte after the transport error. -/
theorem rxByte_of_timeout {s : State} (hc : s.clockOk = true) (hmid : s.rx.phase ≠ .idle)
    (hlate : s.cfg.interbyteTimeout < elapsed s.cfg.tickW s.now s.rx.lastTick) (b : Byte) :
    s.rxByte b = (s.transportError .timeout).rxByte b := by
  obtain ⟨-, -, fires⟩ := timeoutFiresOnlyWhenExceeded s hc
  rw [State.rxByte, State.rxByte, fires hmid hlate, timeoutCheck_of_idle rfl]

theorem drain_of_timeout {bytes : List Byte} {s : State} (hne : bytes ≠ []) (hc : s.clockOk = true)
    (hmid : s.rx.phase ≠ .idle) (hfree : ¬ s.Dropping)
    (hlate : s.cfg.interbyteTimeout < elapsed s.cfg.tickW s.now s.rx.lastTick) :
    drain bytes s = drain bytes (s.transportError .timeout) := by
  obtain ⟨b, q, rfl⟩ := List.exists_cons_of_ne_nil hne
  have hfree' : ¬ (s.transportError .timeout).Dropping := hfree
  rw [drain_cons, drain_cons, drainByte, drainByte, if_neg hfree, if_neg hfree',
    rxByte_of_timeout hc hmid hlate]

/-! ### What the parts of a pass write -/

/-- Sampling and the refresh write channels and record no receiver event. -/
def WritesChannelsOnly (s t : State) : Prop :=
  ∃ ch n events, t = { s with ch := ch, freeCount := n, trace := s.trace ++ events } ∧
    ∀ e, .rx e ∉ events

theorem sampleStep_writesChannelsOnly (result : Option ChannelValues) (s : State) :
    WritesChannelsOnly s (sampleStep result s) := by
  rcases sampleStep_cases result s with ⟨n, e⟩ | ⟨n, e⟩ <;> rw [e]
  · exact ⟨s.ch, n, [], by simp, by simp⟩
  · cases result with
    | none => rw [takeSample_none]; exact ⟨_, n, [.sample false], rfl, by simp⟩
    | some v => rw [takeSample_some]; exact ⟨_, n, [.sample true], rfl, by simp⟩

theorem pwmRefresh_writesChannelsOnly (s : State) : WritesChannelsOnly s (pwmRefresh s) := by
  rcases pwmRefresh_cases s with ⟨-, -, e⟩ | e <;> rw [e]
  · exact ⟨s.ch, s.freeCount, [], by simp, by simp⟩
  · exact ⟨_, s.freeCount, [.outputs s.ch.out], rfl, by simp⟩

theorem WritesChannelsOnly.trans {s t u : State} (h : WritesChannelsOnly s t)
    (k : WritesChannelsOnly t u) : WritesChannelsOnly s u := by
  obtain ⟨_, _, es, rfl, hes⟩ := h
  obtain ⟨ch, n, fs, rfl, hfs⟩ := k
  refine ⟨ch, n, es ++ fs, by rw [List.append_assoc], fun e he => ?_⟩
  exact (List.mem_append.mp he).elim (hes e) (hfs e)

/-- Step 4 of a pass: one sampling step and one refresh. -/
theorem sampleAndRefresh_writesChannelsOnly (result : Option ChannelValues) (s : State) :
    WritesChannelsOnly s (pwmRefresh (sampleStep result s)) :=
  (sampleStep_writesChannelsOnly result s).trans (pwmRefresh_writesChannelsOnly _)

theorem drainByte_clockOk {b : Byte} {s t : State} (h : drainByte b s = .next t) :
    t.clockOk = s.clockOk := by
  rcases drainByte_shape h with ⟨_, _, _, rfl, -⟩ | ⟨-, _, _, _, _, -, rfl⟩ |
    ⟨-, -, rx, n, es, out, rc, rp, -, rfl⟩
  · rfl
  · rfl
  · obtain ⟨_, _, e⟩ := respond_shape rc rp { s with
      rx := rx, freeCount := n, trace := s.trace ++ es.map Event.rx, ch := { s.ch with out := out } }
    rw [e]

theorem drain_clockOk {q : List Byte} {s t : State} (h : drain q s = .next t) : t.clockOk = s.clockOk :=
  drain_induct (P := fun u => u.clockOk = s.clockOk)
    (fun _ _ _ hu hb => (drainByte_clockOk hb).trans hu) rfl h

theorem transmitStep_clockOk {complete : Bool} {s t : State} (h : transmitStep complete s = .next t) :
    t.clockOk = s.clockOk := by
  obtain ⟨u, hu, rfl⟩ := transmitStep_parts h
  have turned : u.clockOk = s.clockOk := by
    rcases turnaroundStep_cases hu with e | ⟨-, -, e⟩ <;> rw [e]
  rcases drainStep_cases complete u with e | ⟨-, -, e⟩ <;> rw [e]
  · exact turned
  · exact turned

/-- With the line free the transmit step does nothing. -/
theorem transmitStep_of_lineFree {s : State} (h : s.tx.phase = .idle) (complete : Bool) :
    transmitStep complete s = .next s := by
  simp [transmitStep, turnaroundStep, drainStep, h]

/-! ### Every pass goes on -/

/-- Within the invariants the line is in Transmit wherever the response is written (70_reset_and_hazards.md R265). -/
theorem turnaroundStep_total {s : State} (hw : Wf s) : ∃ t, turnaroundStep s = .next t := by
  obtain ⟨-, ⟨hdir, -⟩, -⟩ := hw
  unfold turnaroundStep
  split_ifs with hphase
  · have transmit : s.tx.dir = .transmit := hdir.mpr (by simp [hphase])
    simp only
    split_ifs
    · exact ⟨_, by simp [State.writeBytes, transmit]; rfl⟩
    · exact ⟨_, rfl⟩
  · exact ⟨_, rfl⟩

theorem step_total {s : State} (hv : Valid s.cfg) (hw : Wf s) : ∃ t, step s = .next t := by
  obtain ⟨u, hu⟩ := drain_total s.nextInput.rx s.beginPass
  have drained : Wf u := drain_induct (fun _ _ _ => Wf.drainByte) hw.beginPass hu
  obtain ⟨v, turned⟩ := turnaroundStep_total drained
  have transmitted : transmitStep s.nextInput.txComplete u = .next (drainStep s.nextInput.txComplete v) :=
    andThen_eq_next.mpr ⟨v, turned, rfl⟩
  exact ⟨_, step_eq_next.mpr ⟨hv, hw, pass_eq_next.mpr ⟨u, _, hu, transmitted, rfl⟩⟩⟩

/-! ### In the sweep -/

/-- Within the clock's bounds, what a pass leaves mid-frame has heard a byte lately (42_control_loop.md R204). -/
theorem step_bound {s t : State} (h : step s = .next t) (hc : s.nextInput.clockOk = true) :
    t.rx.phase = .idle ∨ elapsed t.cfg.tickW t.now t.rx.lastTick ≤ t.cfg.interbyteTimeout := by
  obtain ⟨u, v, hu, hv, rfl⟩ := step_parts h
  obtain ⟨_, _, _, written, -⟩ := sampleAndRefresh_writesChannelsOnly s.nextInput.sample v
  have kept : v.clockOk = true := (transmitStep_clockOk hv).trans ((drain_clockOk hu).trans hc)
  exact timeoutCheck_bound (by rw [written]; exact kept)

/-- A pass without bytes, with the line free and too long a silence mid-frame: the sweep is ERR_TIMEOUT, after the sampling and
the refresh (60_exceptions.md R238). -/
theorem step_sweeps {s : State} (hv : Valid s.cfg) (hw : Wf s) (hmid : s.rx.phase ≠ .idle)
    (hfree : s.tx.phase = .idle) (hc : s.nextInput.clockOk = true) (hrx : s.nextInput.rx = [])
    (hlate : s.cfg.interbyteTimeout <
      elapsed s.cfg.tickW (s.nextInput.now % 2 ^ s.cfg.tickW) s.rx.lastTick) :
    ∃ u, step s = .next (u.transportError .timeout) ∧ WritesChannelsOnly s.beginPass u := by
  have written := sampleAndRefresh_writesChannelsOnly s.nextInput.sample s.beginPass
  refine ⟨_, step_eq_next.mpr ⟨hv, hw, pass_eq_next.mpr
    ⟨s.beginPass, s.beginPass, by rw [hrx, drain_nil], transmitStep_of_lineFree (s := s.beginPass) hfree _, ?_⟩⟩, written⟩
  obtain ⟨_, _, _, e, -⟩ := written
  obtain ⟨-, -, fires⟩ := timeoutFiresOnlyWhenExceeded (pwmRefresh (sampleStep s.nextInput.sample s.beginPass))
    (by rw [e]; exact hc)
  rw [fires (by rw [e]; exact hmid) (by rw [e]; exact hlate)]

/-! ### The next frame -/

theorem dispatch_trace (i : Instr) (addr : Byte) (s : State) :
    ∃ events, (s.dispatch addr (commandOf i)).trace = s.trace ++ events := by
  rcases dispatch_shape i addr s with e | ⟨_, e⟩ | ⟨out, rc, rp, -, -, e⟩ <;> rw [e]
  · exact ⟨[], by simp⟩
  · exact ⟨[], by simp⟩
  · exact respond_trace rc rp { s with ch := { s.ch with out := out } }

/-- After the drain a pass only appends to the observation. -/
theorem finishPass_trace {complete : Bool} {result : Option ChannelValues} {s t : State}
    (h : transmitStep complete s = .next t) :
    ∃ events, (pwmRefresh (sampleStep result t)).timeoutCheck.trace = s.trace ++ events := by
  obtain ⟨u, hu, rfl⟩ := transmitStep_parts h
  obtain ⟨events, e, -⟩ := (turnaroundStep_actsOnFramesOnly hu).trans
    ((drainStep_actsOnFramesOnly complete u).trans
      ((sampleStep_actsOnFramesOnly result _).trans
        ((pwmRefresh_actsOnFramesOnly _).trans (timeoutCheck_actsOnFramesOnly _))))
  exact ⟨events, e⟩

/-- A pass from Idle whose bytes are one frame goes on, and FRAME_OK is the first event it records. -/
theorem step_frame_trace {s : State} {i : Instr} (hv : Valid s.cfg) (hw : Wf s)
    (hidle : s.rx.phase = .idle) (hfree : s.tx.phase = .idle) (hc : s.nextInput.clockOk = true)
    (hdecode : decode s.cfg s.nextInput.rx = .ok (i, [])) :
    ∃ t later, step s = .next t ∧ t.trace = s.trace ++ .rx .frameOk :: later := by
  obtain ⟨⟨-, -, -, hbuf, -⟩, -⟩ := id hw
  have ready : ReadyToDrain s.beginPass :=
    { idle := hidle, buffer := hbuf, clock := hc, lineFree := hfree, noResponse := rfl,
      tick := Nat.mod_lt _ (Nat.two_pow_pos _) }
  have drained := drainRunsFrameBeforeNextByte _ [] i _ ready hdecode
  rw [exec_eq_dispatch, andThen_next, drain_nil] at drained
  obtain ⟨t, ht⟩ := step_total hv hw
  obtain ⟨u, v, hu, hv', rfl⟩ := step_parts ht
  obtain ⟨later, finished⟩ := finishPass_trace (result := s.nextInput.sample) hv'
  obtain ⟨events, dispatched⟩ := dispatch_trace i i.addr (s.beginPass.frameHeld i)
  obtain rfl : _ = u := Host.Outcome.next.inj (drained.symm.trans hu)
  exact ⟨_, events ++ later, ht, by rw [finished, dispatched]; simp⟩

/-- Settles O38: the three places where the old frame ends, and the new frame after each. -/
theorem timeoutRecoversForTheNextFrame : Obligations.TimeoutRecoversForTheNextFrame := by
  refine ⟨?firstByte, fun s t => step_bound, ?sweep⟩
  case firstByte =>
    intro bytes rest i s hmid hc hbuf hfree hquiet hnow hlate hdecode
    have hne : bytes ≠ [] := by rintro rfl; cases hdecode
    have ready : ReadyToDrain (s.transportError .timeout) :=
      { idle := rfl, buffer := hbuf, clock := hc, lineFree := hfree, noResponse := hquiet, tick := hnow }
    rw [drain_of_timeout hne hc hmid (by simp [hfree, hquiet]) hlate]
    exact drainRunsFrameBeforeNextByte bytes rest i _ ready hdecode
  case sweep =>
    intro s hv hw hmid hfree hc hrx hlate
    obtain ⟨u, hstep, ch, n, events, rfl, hevents⟩ := step_sweeps hv hw hmid hfree hc hrx hlate
    refine ⟨_, events, hstep, rfl, hevents, rfl, rfl, fun i hc' hdecode => ?_⟩
    exact step_frame_trace hv (passKeepsInvariants s _ hstep) rfl hfree hc' hdecode

end Sys2Proof.Machine
end
section
/-! PROOFS. Rejections and errors of the commands (41_commands.md R161, R165, R176, R177, R179), and what two SET_OUTPUTS in a row
leave (R182). -/
namespace Sys2Proof.Machine

/-! ### Commands for another board and command errors -/

/-- Settles O16: the address filter stands before every command rule. -/
theorem otherBoardsCommandHasNoEffect : Obligations.OtherBoardsCommandHasNoEffect := by
  intro i s hb hc
  rw [exec_eq_dispatch, dispatch_other hb hc]

/-- Settles O22: an error response holds two bytes, so it fits its frame, and the error itself changes nothing. -/
theorem commandErrorEntry : Obligations.CommandErrorEntry := by
  intro code cmd s hv
  constructor
  · intro hne
    rw [dispatch_own hne]
    exact respond_of_fits (rp := [code, cmd]) (hv.fits (show 2 ≤ 32 by decide)) _
  · exact dispatch_broadcast s _

/-- Settles O15: the command error is the reserved range's only answer. -/
theorem reservedCommandAnswersUnknown : Obligations.ReservedCommandAnswersUnknown := by
  intro s addr cmd payload hv
  have rejected : commandOf (.reserved addr cmd payload) s
      = s.commandError s.cfg.errUnknownCommand cmd := rfl
  exact ⟨fun hown hc => exec_own_error rejected hown hc hv,
    exec_broadcast (congrArg Answer.state rejected)⟩

/-! ### The three outcomes of SET_OUTPUTS -/

/-- SET_OUTPUTS carries 32 bytes (41_commands.md R176). -/
theorem commandOf_setOutputs_badLength {payload : List Byte} (h : payload.length ≠ 32) (addr : Byte)
    (s : State) :
    commandOf (.setOutputs addr payload) s = s.commandError s.cfg.errBadLength s.cfg.cmdSetOutputs :=
  if_pos h

/-- One value above MAX_DUTY rejects all 16 (41_commands.md R177). -/
theorem commandOf_setOutputs_outOfRange {payload : List Byte} {s : State} (h : payload.length = 32)
    (hd : OutOfRange s.cfg (dutyValues payload)) (addr : Byte) :
    commandOf (.setOutputs addr payload) s = s.commandError s.cfg.errInvalidValue s.cfg.cmdSetOutputs :=
  (if_neg (not_not.mpr h)).trans (if_pos hd)

theorem commandOf_setOutputs_inRange {payload : List Byte} {s : State} (h : payload.length = 32)
    (hd : ¬ OutOfRange s.cfg (dutyValues payload)) (addr : Byte) :
    commandOf (.setOutputs addr payload) s =
      { state := s.storeOutputs (dutyValues payload), cmd := s.cfg.cmdSetOutputs, payload := [] } :=
  (if_neg (not_not.mpr h)).trans (if_neg hd)

/-- A value above MAX_DUTY, read off the payload's bytes (30_encoding.md R92). -/
theorem outOfRange_dutyValues_iff {p : Params} {payload : List Byte} :
    OutOfRange p (dutyValues payload) ↔ ∃ i : Fin channelCount,
      p.maxDuty < u16 (payload.getD (2 * i.val) 0) (payload.getD (2 * i.val + 1) 0) := by
  simp [OutOfRange, dutyValues]

/-- Settles O14: the length is tested first, and either rejection is a command error. -/
theorem setOutputsRejects : Obligations.SetOutputsRejects := by
  intro s addr payload hv
  simp only [← outOfRange_dutyValues_iff]
  refine ⟨?badLength, ?outOfRange, ?broadcast⟩
  case badLength =>
    intro hlen hown hc
    exact exec_own_error (commandOf_setOutputs_badLength hlen addr s) hown hc hv
  case outOfRange =>
    intro hlen hd hown hc
    exact exec_own_error (commandOf_setOutputs_outOfRange hlen hd addr) hown hc hv
  case broadcast =>
    intro hbad
    refine exec_broadcast (i := .setOutputs addr payload) ?_
    by_cases hlen : payload.length = 32
    · rw [commandOf_setOutputs_outOfRange hlen (hbad.resolve_left (not_not.mpr hlen))]
      rfl
    · rw [commandOf_setOutputs_badLength hlen]
      rfl

/-- Settles O18: each of the frames stores the same values and is acknowledged, whatever state it finds. -/
theorem setOutputsIsIdempotent : Obligations.SetOutputsIsIdempotent := by
  intro s d hv hne hd _ _ ack
  have acknowledged (v : State) (hcfg : v.cfg = s.cfg) :
      exec (.setOutputs s.cfg.boardAddr (valuesPayload d)) v
        = .next ((v.storeOutputs d).withResponse s.cfg.cmdSetOutputs []) := by
    rw [← hcfg] at hv hne hd ⊢
    exact (setOutputsStoresAndAcknowledges v _ d hv hd).1 rfl hne
  have ackHeld (v : State) (hcfg : v.cfg = s.cfg) :
      ((v.storeOutputs d).withResponse s.cfg.cmdSetOutputs []).tx.buf = ack := by
    simp [State.withResponse, hcfg, ack]
  refine ⟨_, _, acknowledged s rfl, rfl, ackHeld s rfl, rfl, acknowledged _ rfl, rfl, ackHeld _ rfl, ?_, ?_⟩
  · simp [State.withResponse, State.returnToReceive]
  · intro v _ _ hcfg _
    exact ⟨_, acknowledged v hcfg, rfl, ackHeld v hcfg, rfl⟩

end Sys2Proof.Machine
end
section
/-! PROOFS. What a command's answer rests on (41_commands.md R181, R186): the configuration, the tick, the raw inputs and STALE, and
for its effect on OUT the channels, so that no earlier failure shows in it. -/
namespace Sys2Proof.Machine

/-- A command's own effect is on OUT at most (41_commands.md R186). -/
theorem commandOf_writes_out (i : Instr) (s : State) :
    ∃ out, (commandOf i s).state = { s with ch := { s.ch with out := out } } := by
  rcases commandOf_state i s with e | ⟨_, _, -, -, -, e⟩
  · exact ⟨s.ch.out, e⟩
  · exact ⟨_, e⟩

theorem commandOf_tx (i : Instr) (s : State) : (commandOf i s).state.tx = s.tx := by
  obtain ⟨_, e⟩ := commandOf_writes_out i s; rw [e]

theorem commandOf_now (i : Instr) (s : State) : (commandOf i s).state.now = s.now := by
  obtain ⟨_, e⟩ := commandOf_writes_out i s; rw [e]

theorem commandError_payload_length_le (code cmd : Byte) (s : State) :
    (s.commandError code cmd).payload.length ≤ 32 := show 2 ≤ 32 by decide

/-- Every response is within the 32 bytes that MAX_PAYLOAD allows at least (30_encoding.md R93, R94, R95, R98). -/
theorem commandOf_payload_length_le (i : Instr) (s : State) : (commandOf i s).payload.length ≤ 32 := by
  cases i with
  | ping addr payload =>
    by_cases h : payload = []
    · rw [h, commandOf_ping_nil, pingPayload_eq]
      exact show 5 ≤ 32 by decide
    · rw [commandOf_ping_badLength h]
      exact commandError_payload_length_le _ _ s
  | readInputs addr payload =>
    by_cases h : payload = []
    · rw [h, commandOf_readInputs_nil, channelBytes_length]
    · rw [commandOf_readInputs_badLength h]
      exact commandError_payload_length_le _ _ s
  | setOutputs addr payload =>
    by_cases h : payload.length = 32
    · by_cases hd : OutOfRange s.cfg (dutyValues payload)
      · rw [commandOf_setOutputs_outOfRange h hd]
        exact commandError_payload_length_le _ _ s
      · rw [commandOf_setOutputs_inRange h hd]
        exact Nat.zero_le _
    · rw [commandOf_setOutputs_badLength h]
      exact commandError_payload_length_le _ _ s
  | reserved addr cmd payload => exact commandError_payload_length_le _ _ s

/-- Addressed to this board alone, every command of a valid configuration has its effect and its response is started. -/
theorem exec_own_answer {i : Instr} {s : State} (hown : i.addr = s.cfg.boardAddr)
    (hc : i.addr ≠ s.cfg.broadcastAddr) (hv : Valid s.cfg) :
    exec i s = .next ((commandOf i s).state.withResponse (commandOf i s).cmd (commandOf i s).payload) :=
  exec_own rfl hown hc hv (commandOf_payload_length_le i s)

section
variable {s₁ s₂ : State}

/-- The response is computed from the configuration, STALE and the raw inputs (30_encoding.md R93, R98, R99). -/
theorem commandOf_response_congr (hcfg : s₁.cfg = s₂.cfg) (hstale : s₁.ch.stale = s₂.ch.stale)
    (hraw : ∀ k : Fin channelCount, s₁.ch.inputs[k].raw = s₂.ch.inputs[k].raw) (i : Instr) :
    (commandOf i s₁).cmd = (commandOf i s₂).cmd ∧ (commandOf i s₁).payload = (commandOf i s₂).payload := by
  cases i with
  | ping addr payload =>
    by_cases h : payload = []
    · subst h
      simp only [commandOf_ping_nil, pingPayload_eq, hcfg, hstale, and_self]
    · simp only [commandOf_ping_badLength h, State.commandError, hcfg, and_self]
  | readInputs addr payload =>
    by_cases h : payload = []
    · subst h
      simp only [commandOf_readInputs_nil, channelBytes_rawInputs, hcfg, hraw, and_self]
    · simp only [commandOf_readInputs_badLength h, State.commandError, hcfg, and_self]
  | setOutputs addr payload =>
    by_cases h : payload.length = 32
    · by_cases hd : OutOfRange s₁.cfg (dutyValues payload)
      · rw [commandOf_setOutputs_outOfRange h hd, commandOf_setOutputs_outOfRange h (hcfg ▸ hd)]
        simp only [State.commandError, hcfg, and_self]
      · rw [commandOf_setOutputs_inRange h hd, commandOf_setOutputs_inRange h (hcfg ▸ hd)]
        simp only [hcfg, and_self]
    · simp only [commandOf_setOutputs_badLength h, State.commandError, hcfg, and_self]
  | reserved addr cmd payload => simp only [commandOf, reservedCommand, State.commandError, hcfg, and_self]

/-- The effect on the channels is computed from the configuration and the channels (41_commands.md R175-R177). -/
theorem commandOf_ch_congr (hcfg : s₁.cfg = s₂.cfg) (hch : s₁.ch = s₂.ch) (i : Instr) :
    (commandOf i s₁).state.ch = (commandOf i s₂).state.ch := by
  by_cases hi : ∃ addr payload, i = .setOutputs addr payload
  · obtain ⟨addr, payload, rfl⟩ := hi
    by_cases h : payload.length = 32
    · by_cases hd : OutOfRange s₁.cfg (dutyValues payload)
      · rw [commandOf_setOutputs_outOfRange h hd, commandOf_setOutputs_outOfRange h (hcfg ▸ hd)]
        exact hch
      · rw [commandOf_setOutputs_inRange h hd, commandOf_setOutputs_inRange h (hcfg ▸ hd)]
        simp only [State.storeOutputs_ch, hch]
    · rw [commandOf_setOutputs_badLength h, commandOf_setOutputs_badLength h]
      exact hch
  · have other : ∀ addr payload, i ≠ .setOutputs addr payload := fun addr payload e => hi ⟨addr, payload, e⟩
    rw [commandOf_state_of_ne other, commandOf_state_of_ne other, hch]

/-- What starting a response writes to the transmitter rests on the configuration and the tick (42_control_loop.md R196). -/
theorem respond_tx_congr (hcfg : s₁.cfg = s₂.cfg) (hnow : s₁.now = s₂.now) (htx : s₁.tx = s₂.tx)
    (rc : Byte) (rp : List Byte) : (s₁.respond rc rp).tx = (s₂.respond rc rp).tx := by
  unfold State.respond State.startResponse
  rw [hcfg]
  cases encodeFrame s₂.cfg s₂.cfg.boardAddr rc rp with
  | none => exact htx
  | some f => simp [hnow, htx]

end

/-- Settles O20: the transmitter is written by the response alone, and the response is `commandOf_response_congr`'s. -/
theorem answersRevealOnlyInputsAndStale : Obligations.AnswersRevealOnlyInputsAndStale := by
  intro i s₁ s₂ t₁ t₂ hcfg hnow htx hstale hraw h₁ h₂
  rw [exec_eq_next] at h₁ h₂
  subst h₁ h₂
  obtain ⟨cmd, payload⟩ := commandOf_response_congr hcfg hstale hraw i
  have effect_tx : (commandOf i s₁).state.tx = (commandOf i s₂).state.tx := by
    rw [commandOf_tx, commandOf_tx, htx]
  unfold State.dispatch
  rw [cmd, payload, hcfg]
  split_ifs
  · exact htx
  · exact effect_tx
  · exact respond_tx_congr (by rw [commandOf_cfg, commandOf_cfg, hcfg])
      (by rw [commandOf_now, commandOf_now, hnow]) effect_tx _ _

/-- A command that left OUT as it was left every channel register as it was (41_commands.md R186). -/
theorem exec_ch_of_out {i : Instr} {s t : State} (h : exec i s = .next t) (hout : t.ch.out = s.ch.out) :
    t.ch = s.ch := by
  rw [exec_eq_next] at h
  subst h
  obtain ⟨_, _, _, _, e⟩ := dispatch_writes i i.addr s
  rw [e] at hout ⊢
  exact congrArg (fun out => { s.ch with out := out }) hout

/-- Settles O19: the first command leaves the configuration and the channels, and the second rests on nothing else but its tick. -/
theorem rejectedCommandLeavesNoTrace : Obligations.RejectedCommandLeavesNoTrace := by
  intro i j s t w u v hfirst hout hown hc hv hwcfg hwch hu hw
  have cfg : w.cfg = s.cfg := hwcfg.trans (commandsLeaveTheRestUnchanged i s t hfirst).1
  have ch : w.ch = s.ch := hwch.trans (exec_ch_of_out hfirst hout)
  rw [exec_own_answer hown hc hv] at hu
  rw [exec_own_answer (cfg ▸ hown) (cfg ▸ hc) (cfg ▸ hv)] at hw
  obtain rfl := Host.Outcome.next.inj hu
  obtain rfl := Host.Outcome.next.inj hw
  obtain ⟨cmd, payload⟩ := commandOf_response_congr cfg (by rw [ch]) (fun _ => by rw [ch]) j
  refine ⟨commandOf_ch_congr cfg ch j, ?_⟩
  simp only [State.withResponse, commandOf_cfg, commandOf_now, cfg, cmd, payload]

end Sys2Proof.Machine
end
section
/-! PROOFS. Commands in a pass (42_control_loop.md R190): the pass that receives one frame, and the board that never answers
(41_commands.md R162). -/
namespace Sys2Proof.Machine

theorem step_eq_pass {s : State} (hv : Valid s.cfg) (hw : Wf s) : step s = pass s :=
  (if_pos hv).trans (if_pos hw)

/-- A pass that begins within the invariants, in Idle, with the line free, gives its bytes to the receiver. -/
theorem Wf.readyToDrain_beginPass {s : State} (hw : Wf s) (hidle : s.rx.phase = .idle)
    (hfree : s.tx.phase = .idle) (hc : s.nextInput.clockOk = true) : ReadyToDrain s.beginPass := by
  obtain ⟨⟨-, -, -, hbuf, -⟩, -⟩ := hw
  exact { idle := hidle, buffer := hbuf, clock := hc, lineFree := hfree, noResponse := rfl,
          tick := Nat.mod_lt _ (Nat.two_pow_pos _) }

/-- Settles O34: the drain is the frame's command, and what follows it is `finishPass`, written out. -/
theorem stepRunsDecodedFrame : Obligations.StepRunsDecodedFrame := by
  intro s i hv hw hidle hfree hc hdecode
  have drained := drainRunsFrameBeforeNextByte _ [] i _ (hw.readyToDrain_beginPass hidle hfree hc) hdecode
  rw [step_eq_pass hv hw, pass, drained, andThen_assoc]
  rfl

/-! ### A board without an address of its own -/

/-- `t` follows `s` with the configuration and the transmitter as they were, and without a call on the line. -/
structure LineUntouched (s t : State) : Prop where
  cfg : t.cfg = s.cfg
  tx : t.tx = s.tx
  silent : ∃ events, t.trace = s.trace ++ events ∧ (∀ d, .dir d ∉ events) ∧ ∀ bs, .tx bs ∉ events

theorem LineUntouched.trans {s t u : State} (h : LineUntouched s t) (k : LineUntouched t u) :
    LineUntouched s u := by
  obtain ⟨hcfg, htx, es, he, hdir, hsent⟩ := h
  obtain ⟨kcfg, ktx, fs, kf, kdir, ksent⟩ := k
  refine ⟨kcfg.trans hcfg, ktx.trans htx, es ++ fs, by rw [kf, he, List.append_assoc], ?_, ?_⟩
  · intro d hd
    exact (List.mem_append.mp hd).elim (hdir d) (kdir d)
  · intro bs hbs
    exact (List.mem_append.mp hbs).elim (hsent bs) (ksent bs)

/-- A part that records nothing and writes neither register leaves the line alone. -/
theorem LineUntouched.of_eq {s t : State} (cfg : t.cfg = s.cfg) (tx : t.tx = s.tx)
    (trace : t.trace = s.trace) : LineUntouched s t := ⟨cfg, tx, [], by simp [trace]⟩

/-- A byte leaves the line alone where every frame for this board is a broadcast (41_commands.md R162). -/
theorem drainByte_lineUntouched {b : Byte} {s t : State} (haddr : s.cfg.boardAddr = s.cfg.broadcastAddr)
    (h : drainByte b s = .next t) : LineUntouched s t := by
  rcases drainByte_shape h with ⟨_, _, es, rfl, -⟩ | ⟨-, _, _, es, _, -, rfl⟩ | ⟨-, hne, -⟩
  · exact ⟨rfl, rfl, es.map Event.rx, rfl, by simp⟩
  · exact ⟨rfl, rfl, es.map Event.rx, rfl, by simp⟩
  · exact absurd haddr hne

theorem turnaroundStep_lineUntouched {s t : State} (hfree : s.tx.phase = .idle)
    (h : turnaroundStep s = .next t) : LineUntouched s t := by
  rcases turnaroundStep_cases h with e | ⟨hphase, -, -⟩
  · rw [e]; exact .of_eq rfl rfl rfl
  · simp [hfree] at hphase

theorem drainStep_lineUntouched {s : State} (hfree : s.tx.phase = .idle) (complete : Bool) :
    LineUntouched s (drainStep complete s) := by
  rcases drainStep_cases complete s with e | ⟨-, hphase, -⟩
  · rw [e]; exact .of_eq rfl rfl rfl
  · simp [hfree] at hphase

theorem sampleStep_lineUntouched (result : Option ChannelValues) (s : State) :
    LineUntouched s (sampleStep result s) := by
  rcases sampleStep_cases result s with ⟨n, e⟩ | ⟨n, e⟩ <;> rw [e]
  · exact .of_eq rfl rfl rfl
  · cases result with
    | none => rw [takeSample_none]; exact ⟨rfl, rfl, [.sample false], rfl, by simp⟩
    | some v => rw [takeSample_some]; exact ⟨rfl, rfl, [.sample true], rfl, by simp⟩

theorem pwmRefresh_lineUntouched (s : State) : LineUntouched s (pwmRefresh s) := by
  rcases pwmRefresh_cases s with ⟨-, -, e⟩ | e <;> rw [e]
  · exact .of_eq rfl rfl rfl
  · exact ⟨rfl, rfl, [.outputs s.ch.out], rfl, by simp⟩

theorem timeoutCheck_lineUntouched (s : State) : LineUntouched s s.timeoutCheck := by
  obtain ⟨_, _, es, e, -⟩ := timeoutCheck_shape s
  rw [e]
  exact ⟨rfl, rfl, es.map Event.rx, rfl, by simp⟩

/-- The line stays free, so the parts that call on it find nothing to send. -/
theorem lineUntouched_keptByParts {s : State} (haddr : s.cfg.boardAddr = s.cfg.broadcastAddr)
    (hfree : s.tx.phase = .idle) : KeptByParts (LineUntouched s) where
  begins h := h.trans (.of_eq rfl rfl rfl)
  byte h hb := h.trans (drainByte_lineUntouched (by rwa [h.cfg]) hb)
  turnaround h ht := h.trans (turnaroundStep_lineUntouched (by rwa [h.tx]) ht)
  finish complete h := h.trans (drainStep_lineUntouched (by rwa [h.tx]) complete)
  sample result h := h.trans (sampleStep_lineUntouched result _)
  refresh h := h.trans (pwmRefresh_lineUntouched _)
  sweep h := h.trans (timeoutCheck_lineUntouched _)

/-- Settles O56: a frame for this board is a broadcast, and with no response started the line is never used. -/
theorem unassignedBoardNeverAnswers : Obligations.UnassignedBoardNeverAnswers := by
  intro s t h haddr hfree
  have untouched := (lineUntouched_keptByParts haddr hfree).step (.of_eq rfl rfl rfl) h
  exact ⟨untouched.tx, untouched.silent⟩

end Sys2Proof.Machine
end
section
/-! PROOFS. The steps of a pass (42_control_loop.md R193, R197-R203): the drain while the line is held, the transmit step, the
sampling step and the PWM refresh, each by the condition that selects what it does. -/
namespace Sys2Proof.Machine

/-! ### The drain while the line is held (42_control_loop.md R193, R195) -/

/-- The state after `n` bytes were discarded: the observation has grown, and nothing else is written. -/
def State.dropped (n : Nat) (s : State) : State :=
  { s with trace := s.trace ++ List.replicate n (.rx .dropped) }

section
variable (n : Nat) (s : State)

@[simp] theorem State.dropped_rx : (s.dropped n).rx = s.rx := rfl
@[simp] theorem State.dropped_tx : (s.dropped n).tx = s.tx := rfl
@[simp] theorem State.dropped_ch : (s.dropped n).ch = s.ch := rfl
@[simp] theorem State.dropped_trace :
    (s.dropped n).trace = s.trace ++ List.replicate n (.rx .dropped) := rfl

end

/-- A dropped byte leaves the drain dropping, so that all the bytes after it are dropped too. -/
theorem drain_of_dropping {bytes : List Byte} {s : State} (h : s.Dropping) :
    drain bytes s = .next (s.dropped bytes.length) := by
  induction bytes generalizing s with
  | nil => simp [State.dropped]
  | cons b q ih =>
    have still : (s.record (.rx .dropped)).Dropping := h
    rw [drain_cons, drainByte, if_pos h, andThen_next, ih still]
    simp [State.dropped, State.record, List.replicate_succ]

/-- Settles O32: the condition under which a byte is dropped survives the drop. -/
theorem heldLineDropsBytes : Obligations.HeldLineDropsBytes :=
  fun _ _ h => drain_of_dropping h

/-! ### The transmit step (42_control_loop.md R197-R199) -/

theorem drainStep_of_incomplete (s : State) : drainStep false s = s := by
  simp [drainStep]

theorem drainStep_of_complete {s : State} (h : s.tx.phase = .drain) :
    drainStep true s = s.returnToReceive := if_pos ⟨h, rfl⟩

/-- What the turnaround step answers is what the end of the transmission is then asked for. -/
theorem transmitStep_of_turnaroundStep {s u : State} (h : turnaroundStep s = .next u) (complete : Bool) :
    transmitStep complete s = .next (drainStep complete u) := by
  rw [transmitStep, h, andThen_next]

/-- Outside TX_TURNAROUND nothing is written. -/
theorem turnaroundStep_of_not_turnaround {s : State} (h : s.tx.phase ≠ .turnaround) :
    turnaroundStep s = .next s := if_neg h

section
variable {s : State} (hc : s.clockOk = true) (hphase : s.tx.phase = .turnaround)
include hc hphase

theorem turnaroundStep_of_early
    (hearly : elapsed s.cfg.tickW s.now s.tx.t0 < s.cfg.turnaroundTicks) :
    turnaroundStep s = .next s := by
  simp [turnaroundStep, hphase, readElapsed_of_clockOk hc, hearly]

theorem turnaroundStep_of_due
    (hdue : s.cfg.turnaroundTicks ≤ elapsed s.cfg.tickW s.now s.tx.t0) (hd : s.tx.dir = .transmit) :
    turnaroundStep s = .next { s with
      tx := { s.tx with phase := .drain }
      trace := s.trace ++ [.tx (s.tx.buf.take s.tx.len)] } := by
  simp [turnaroundStep, State.writeBytes, State.record, hphase, readElapsed_of_clockOk hc, hdue, hd]

theorem turnaroundStep_of_due_in_receive
    (hdue : s.cfg.turnaroundTicks ≤ elapsed s.cfg.tickW s.now s.tx.t0) (hd : s.tx.dir = .receive) :
    turnaroundStep s = .fault .writeInReceive := by
  simp [turnaroundStep, State.writeBytes, hphase, readElapsed_of_clockOk hc, hdue, hd]

end

/-- Nothing happens where the turnaround step does nothing and the end of no transmission is reported. -/
theorem transmitStep_of_waiting {s : State} {complete : Bool} (h : turnaroundStep s = .next s)
    (hwait : ¬ (s.tx.phase = .drain ∧ complete = true)) : transmitStep complete s = .next s := by
  rw [transmitStep_of_turnaroundStep h, drainStep, if_neg hwait]

/-- A response written in a pass whose answer is that its transmission has ended is sent and over in one step. -/
theorem transmitStep_of_due_complete {s : State} (hc : s.clockOk = true) (hphase : s.tx.phase = .turnaround)
    (hdue : s.cfg.turnaroundTicks ≤ elapsed s.cfg.tickW s.now s.tx.t0) (hd : s.tx.dir = .transmit) :
    transmitStep true s = .next { s with
      tx := { s.tx with dir := .receive, phase := .idle, len := 0 }
      trace := s.trace ++ [.tx (s.tx.buf.take s.tx.len), .dir .receive] } := by
  rw [transmitStep_of_turnaroundStep (turnaroundStep_of_due hc hphase hdue hd), drainStep_of_complete rfl]
  simp [State.returnToReceive, State.setDirection]

/-- Settles O39, clause by clause: what the turnaround step does, and then the end of the transmission. -/
theorem transmitStepRule : Obligations.TransmitStepRule := by
  intro complete s hc
  refine ⟨?free, ?early, ?sent, ?sentAndEnded, ?fault, ?running, ?ended⟩
  case free => exact fun h => transmitStep_of_lineFree h complete
  case early =>
    intro hphase hearly
    exact transmitStep_of_waiting (turnaroundStep_of_early hc hphase hearly) (by simp [hphase])
  case sent =>
    rintro hphase hdue hd rfl
    rw [transmitStep_of_turnaroundStep (turnaroundStep_of_due hc hphase hdue hd), drainStep_of_incomplete]
  case sentAndEnded =>
    rintro hphase hdue hd rfl
    exact transmitStep_of_due_complete hc hphase hdue hd
  case fault =>
    intro hphase hdue hd
    rw [transmitStep, turnaroundStep_of_due_in_receive hc hphase hdue hd, andThen_fault]
  case running =>
    rintro hphase rfl
    exact transmitStep_of_waiting (turnaroundStep_of_not_turnaround (by simp [hphase])) (by simp)
  case ended =>
    rintro hphase rfl
    rw [transmitStep_of_turnaroundStep (turnaroundStep_of_not_turnaround (by simp [hphase])),
      drainStep_of_complete hphase]
    rfl

/-! ### The sampling step (42_control_loop.md R200) -/

/-- A sample is due: none was taken since reset, or SAMPLE_PERIOD ticks have passed since the last one. -/
abbrev State.SampleDue (s : State) : Prop :=
  s.ch.cadPrimed = false ∨ s.cfg.samplePeriod ≤ elapsed s.cfg.tickW s.now s.ch.lastCad

theorem sampleStep_of_due {s : State} (hc : s.clockOk = true) (h : s.SampleDue)
    (result : Option ChannelValues) : sampleStep result s = s.takeSample result := by
  unfold sampleStep
  rw [readElapsed_of_clockOk hc]
  split_ifs with hfirst
  · rfl
  · exact if_pos (h.resolve_left hfirst)

theorem sampleStep_of_not_due {s : State} (hc : s.clockOk = true) (h : ¬ s.SampleDue)
    (result : Option ChannelValues) : sampleStep result s = s := by
  obtain ⟨hprimed, hearly⟩ := not_or.mp h
  unfold sampleStep
  rw [readElapsed_of_clockOk hc, if_neg hprimed]
  exact if_neg hearly

/-- Settles O40: a due sample is `takeSample`, which tells success from failure. -/
theorem sampleStepRule : Obligations.SampleStepRule := by
  intro result s hc
  refine ⟨fun h => sampleStep_of_not_due hc h result, ?failure, ?success⟩
  case failure =>
    rintro hdue rfl
    rw [sampleStep_of_due hc hdue, takeSample_none]
  case success =>
    rintro v hdue rfl
    rw [sampleStep_of_due hc hdue, takeSample_some]

/-! ### The PWM refresh (42_control_loop.md R203) -/

/-- Settles O41: `RefreshDue`, channel by channel, is OUT differing from APPLIED as a whole. -/
theorem pwmRefreshRule : Obligations.PwmRefreshRule := by
  intro s
  constructor
  · intro hvalid happlied
    have quiet : ¬ s.RefreshDue := by rw [refreshDue_iff]; simp [hvalid, happlied]
    exact if_neg quiet
  · intro hdue
    exact if_pos ((refreshDue_iff s).mpr hdue)

end Sys2Proof.Machine
end
section
/-! PROOFS. A whole pass (42_control_loop.md R190): that it goes on, what it does while a response is pending or in flight, and the
sampling in it whatever happens on the bus. -/
namespace Sys2Proof.Machine

/-- Settles O42: within the invariants the one part that can stop, the write of the response, finds the line in Transmit. -/
theorem everyPassGoesOn : Obligations.EveryPassGoesOn :=
  fun _ hv hw => step_total hv hw

/-! ### What the steps after the drain write -/

/-- The transmit step writes DIR, TX_PHASE and TX_LEN, and neither TXBUF nor a register outside the transmitter. -/
theorem transmitStep_shape {complete : Bool} {s t : State} (h : transmitStep complete s = .next t) :
    ∃ dir phase len n events, t = { s with
      tx := { s.tx with dir := dir, phase := phase, len := len }
      freeCount := n
      trace := s.trace ++ events } := by
  obtain ⟨u, hu, rfl⟩ := transmitStep_parts h
  have turned : ∃ phase n events, u = { s with
      tx := { s.tx with phase := phase }
      freeCount := n
      trace := s.trace ++ events } := by
    rcases turnaroundStep_cases hu with e | ⟨-, -, e⟩
    · exact ⟨s.tx.phase, u.freeCount, [], by rw [List.append_nil]; exact e⟩
    · exact ⟨_, _, _, e⟩
  obtain ⟨phase, n, events, rfl⟩ := turned
  rcases drainStep_cases complete { s with
      tx := { s.tx with phase := phase }, freeCount := n, trace := s.trace ++ events } with e | ⟨-, -, e⟩ <;> rw [e]
  · exact ⟨_, _, _, _, _, rfl⟩
  · exact ⟨_, _, _, _, _, by rw [List.append_assoc]⟩

theorem transmitStep_rx {complete : Bool} {s t : State} (h : transmitStep complete s = .next t) :
    t.rx = s.rx := by
  obtain ⟨_, _, _, _, _, rfl⟩ := transmitStep_shape h
  rfl

theorem transmitStep_buf {complete : Bool} {s t : State} (h : transmitStep complete s = .next t) :
    t.tx.buf = s.tx.buf := by
  obtain ⟨_, _, _, _, _, rfl⟩ := transmitStep_shape h
  rfl

/-- Sampling, refresh and sweep leave the transmitter, the tick and the configuration alone, and append to the observation. -/
theorem sampleRefreshSweep_shape (result : Option ChannelValues) (s : State) :
    ∃ rx ch n events, (pwmRefresh (sampleStep result s)).timeoutCheck
      = { s with rx := rx, ch := ch, freeCount := n, trace := s.trace ++ events } := by
  obtain ⟨ch, _, es, written, -⟩ := sampleAndRefresh_writesChannelsOnly result s
  obtain ⟨rx, n, fs, swept, -⟩ := timeoutCheck_shape (pwmRefresh (sampleStep result s))
  refine ⟨rx, ch, n, es ++ fs.map Event.rx, ?_⟩
  rw [swept, written, ← List.append_assoc]

theorem sampleRefreshSweep_tx (result : Option ChannelValues) (s : State) :
    (pwmRefresh (sampleStep result s)).timeoutCheck.tx = s.tx := by
  obtain ⟨_, _, _, _, e⟩ := sampleRefreshSweep_shape result s
  rw [e]

theorem sampleRefreshSweep_trace (result : Option ChannelValues) (s : State) :
    ∃ events, (pwmRefresh (sampleStep result s)).timeoutCheck.trace = s.trace ++ events := by
  obtain ⟨_, _, _, events, e⟩ := sampleRefreshSweep_shape result s
  exact ⟨events, by rw [e]⟩

/-- With the receiver in Idle the sweep has nothing to do, and no receiver register is written after the transmit step. -/
theorem sampleRefreshSweep_rx {s : State} (h : s.rx.phase = .idle) (result : Option ChannelValues) :
    (pwmRefresh (sampleStep result s)).timeoutCheck.rx = s.rx := by
  obtain ⟨_, _, _, written, -⟩ := sampleAndRefresh_writesChannelsOnly result s
  have kept : (pwmRefresh (sampleStep result s)).rx = s.rx := by rw [written]
  rw [timeoutCheck_of_idle (by rwa [kept]), kept]

@[simp] theorem takeSample_out (result : Option ChannelValues) (s : State) :
    (s.takeSample result).ch.out = s.ch.out := by
  cases result with
  | none => rw [takeSample_none]
  | some v => rw [takeSample_some]

@[simp] theorem sampleStep_out (result : Option ChannelValues) (s : State) :
    (sampleStep result s).ch.out = s.ch.out := by
  rcases sampleStep_cases result s with ⟨_, e⟩ | ⟨_, e⟩ <;> rw [e]
  exact takeSample_out _ _

/-- The refresh writes APPLIED and APPLIED_VALID, and no other channel register. -/
theorem pwmRefresh_ch (s : State) : ∃ applied valid,
    (pwmRefresh s).ch = { s.ch with applied := applied, appliedValid := valid } := by
  rcases pwmRefresh_cases s with ⟨-, -, e⟩ | e <;> rw [e]
  · exact ⟨s.ch.applied, s.ch.appliedValid, rfl⟩
  · exact ⟨_, _, rfl⟩

@[simp] theorem pwmRefresh_out (s : State) : (pwmRefresh s).ch.out = s.ch.out := by
  obtain ⟨_, _, e⟩ := pwmRefresh_ch s; rw [e]

/-! ### A pass while the line is held -/

/-- While a response is pending or in flight the drain only drops, and the transmit step finds the registers as they were. -/
theorem step_parts_of_lineHeld {s t : State} (h : step s = .next t) (hheld : s.tx.phase ≠ .idle) :
    ∃ v, transmitStep s.nextInput.txComplete (s.beginPass.dropped s.nextInput.rx.length) = .next v ∧
      t = (pwmRefresh (sampleStep s.nextInput.sample v)).timeoutCheck := by
  obtain ⟨u, v, hu, hv, rfl⟩ := step_parts h
  rw [drain_of_dropping (s := s.beginPass) (.inl hheld)] at hu
  cases hu
  exact ⟨v, hv, rfl⟩

/-- Settles O50: bytes are dropped, the transmit step writes none of these registers, and the receiver, held in Idle
(10_state.md R40 (c)), has nothing to sweep. -/
theorem responseInFlightIsUndisturbed : Obligations.ResponseInFlightIsUndisturbed := by
  intro s t h hheld
  obtain ⟨-, ⟨-, -, hline, -⟩, -⟩ := step_eq_next.mp h
  obtain ⟨v, hv, rfl⟩ := step_parts_of_lineHeld h hheld
  have hrx : v.rx = s.rx := by rw [transmitStep_rx hv, State.dropped_rx, State.beginPass_rx]
  have hbuf : v.tx.buf = s.tx.buf := by rw [transmitStep_buf hv, State.dropped_tx, State.beginPass_tx]
  have hch : v.ch = s.ch := by rw [transmitStep_ch hv, State.dropped_ch, State.beginPass_ch]
  have hidle : v.rx.phase = .idle := by rw [hrx]; exact hline hheld
  rw [sampleRefreshSweep_rx hidle, sampleRefreshSweep_tx, timeoutCheck_ch, pwmRefresh_out, sampleStep_out]
  exact ⟨hrx, hbuf, fun k => by rw [hbuf], by rw [hch]⟩

/-- Without a report of its end no transmission is over. -/
theorem transmitStep_holds_line {s t : State} (h : transmitStep false s = .next t)
    (hheld : s.tx.phase ≠ .idle) : t.tx.phase ≠ .idle := by
  obtain ⟨u, hu, rfl⟩ := transmitStep_parts h
  rw [drainStep_of_incomplete]
  rcases turnaroundStep_cases hu with e | ⟨-, -, e⟩ <;> rw [e]
  · exact hheld
  · simp

/-- Settles O51: only a reported end leads to TX_IDLE, and outside TX_IDLE the line is in Transmit (10_state.md R40 (b)). -/
theorem noEarlyRelease : Obligations.NoEarlyRelease := by
  intro s t h hheld hincomplete
  obtain ⟨-, ⟨hdir, -⟩, -⟩ := passKeepsInvariants s t h
  have still : t.tx.phase ≠ .idle := by
    obtain ⟨v, hv, rfl⟩ := step_parts_of_lineHeld h hheld
    rw [hincomplete] at hv
    rw [sampleRefreshSweep_tx]
    exact transmitStep_holds_line hv hheld
  exact ⟨hdir.mpr still, still⟩

/-- Settles O52: the pass goes on, and its transmit step finds the response due and its transmission ended. -/
theorem dueResponseIsSentInOnePass : Obligations.DueResponseIsSentInOnePass := by
  intro s hv hw hphase hc hcomplete hdue
  have hheld : s.tx.phase ≠ .idle := by simp [hphase]
  obtain ⟨t, ht⟩ := step_total hv hw
  obtain ⟨v, hsent, rfl⟩ := step_parts_of_lineHeld ht hheld
  obtain ⟨later, trace⟩ := sampleRefreshSweep_trace s.nextInput.sample v
  have tx := sampleRefreshSweep_tx s.nextInput.sample v
  obtain ⟨-, ⟨hdir, -⟩, -⟩ := hw
  rw [hcomplete, transmitStep_of_due_complete (s := s.beginPass.dropped _) hc hphase hdue (hdir.mpr hheld)] at hsent
  obtain rfl := Host.Outcome.next.inj hsent
  refine ⟨_, List.replicate s.nextInput.rx.length (.rx .dropped) ++
    ([.tx (s.tx.buf.take s.tx.len), .dir .receive] ++ later), ht, by rw [tx], by rw [tx], ?_, by simp⟩
  rw [trace]
  simp

/-! ### Sampling beside the bus -/

/-- `t` has what the sampling step of `s` reads: the configuration, the tick, and the channels but for OUT. -/
structure SamplingUntouched (s t : State) : Prop where
  cfg : t.cfg = s.cfg
  now : t.now = s.now
  clockOk : t.clockOk = s.clockOk
  ch : ∃ out, t.ch = { s.ch with out := out }

theorem SamplingUntouched.refl (s : State) : SamplingUntouched s s := ⟨rfl, rfl, rfl, s.ch.out, rfl⟩

theorem SamplingUntouched.trans {s t u : State} (h : SamplingUntouched s t) (k : SamplingUntouched t u) :
    SamplingUntouched s u := by
  obtain ⟨_, hch⟩ := h.ch
  obtain ⟨out, kch⟩ := k.ch
  exact ⟨k.cfg.trans h.cfg, k.now.trans h.now, k.clockOk.trans h.clockOk, out, by rw [kch, hch]⟩

/-- No byte touches the sampling: of the channels a command writes OUT alone (41_commands.md R186). -/
theorem drainByte_samplingUntouched {b : Byte} {s t : State} (h : drainByte b s = .next t) :
    SamplingUntouched s t := by
  rcases drainByte_shape h with ⟨_, _, _, rfl, -⟩ | ⟨-, _, _, _, out, -, rfl⟩ |
    ⟨-, -, rx, n, es, out, rc, rp, -, rfl⟩
  · exact ⟨rfl, rfl, rfl, _, rfl⟩
  · exact ⟨rfl, rfl, rfl, out, rfl⟩
  · obtain ⟨_, _, e⟩ := respond_shape rc rp { s with
      rx := rx, freeCount := n, trace := s.trace ++ es.map Event.rx, ch := { s.ch with out := out } }
    rw [e]
    exact ⟨rfl, rfl, rfl, out, rfl⟩

theorem drain_samplingUntouched {q : List Byte} {s t : State} (h : drain q s = .next t) :
    SamplingUntouched s t :=
  drain_induct (fun _ _ _ hu hb => hu.trans (drainByte_samplingUntouched hb)) (.refl s) h

theorem transmitStep_samplingUntouched {complete : Bool} {s t : State}
    (h : transmitStep complete s = .next t) : SamplingUntouched s t := by
  obtain ⟨_, _, _, _, _, rfl⟩ := transmitStep_shape h
  exact ⟨rfl, rfl, rfl, _, rfl⟩

theorem SamplingUntouched.sampleDue_iff {s t : State} (h : SamplingUntouched s t) :
    t.SampleDue ↔ s.SampleDue := by
  obtain ⟨_, hch⟩ := h.ch
  rw [State.SampleDue, h.cfg, h.now, hch]

/-- Whatever came before it in the pass, the sampling step decides on the state in which the pass began. -/
theorem step_sampling {s t : State} (h : step s = .next t) : ∃ v, SamplingUntouched s.beginPass v ∧
    t = (pwmRefresh (sampleStep s.nextInput.sample v)).timeoutCheck := by
  obtain ⟨u, v, hu, hv, rfl⟩ := step_parts h
  exact ⟨v, (drain_samplingUntouched hu).trans (transmitStep_samplingUntouched hv), rfl⟩

/-- A taken sample sets the cadence, and STALE says whether it failed (42_control_loop.md R200-R202). -/
theorem takeSample_cadence (result : Option ChannelValues) (s : State) :
    (s.takeSample result).ch.lastCad = s.now ∧ (s.takeSample result).ch.cadPrimed = true ∧
      (s.takeSample result).ch.stale = result.isNone := by
  cases result with
  | none => rw [takeSample_none]; exact ⟨rfl, rfl, rfl⟩
  | some v => rw [takeSample_some]; exact ⟨rfl, rfl, rfl⟩

/-- Settles O55: the drain and the transmit step leave what the sampling step reads, and the parts after it leave what it
wrote. -/
theorem samplingIgnoresBusTraffic : Obligations.SamplingIgnoresBusTraffic := by
  intro s t h hc
  obtain ⟨v, untouched, rfl⟩ := step_sampling h
  have clock : v.clockOk = true := untouched.clockOk.trans hc
  obtain ⟨_, _, refreshed⟩ := pwmRefresh_ch (sampleStep s.nextInput.sample v)
  rw [timeoutCheck_ch, timeoutCheck_now, pwmRefresh_now, sampleStep_now, refreshed]
  constructor
  · intro hdue
    rw [sampleStep_of_due clock (untouched.sampleDue_iff.mpr hdue)]
    exact takeSample_cadence _ v
  · intro hprimed hearly
    have notDue : ¬ s.beginPass.SampleDue := not_or.mpr ⟨by simp [hprimed], not_le.mpr hearly⟩
    obtain ⟨_, hch⟩ := untouched.ch
    rw [sampleStep_of_not_due clock (mt untouched.sampleDue_iff.mp notDue), hch]
    exact ⟨rfl, rfl, rfl⟩

end Sys2Proof.Machine
end
section
/-! PROOFS. Transport errors and frames for another board (60_exceptions.md R231, R233): neither reaches a command, so that the
receiver and the observation are all they write. -/
namespace Sys2Proof.Machine

/-- Settles O21: RX_PHASE and RX_J by the error's receiver registers, and the rest by its definition. -/
theorem transportErrorEntry : Obligations.TransportErrorEntry := by
  intro r s
  have idle : (s.transportError r).rx.phase = .idle := by rw [State.transportError_rx]
  have clear : (s.transportError r).rx.j = false := by rw [State.transportError_rx]
  exact ⟨idle, clear, rfl⟩

/-- The drain of a frame for another board ends with the frame held in the receiver: the address filter lets no command see
it (41_commands.md R161). -/
theorem drain_otherBoard {bytes : List Byte} {i : Instr} {s : State} (hs : ReadyToDrain s)
    (hdecode : decode s.cfg bytes = .ok (i, [])) (hb : i.addr ≠ s.cfg.boardAddr)
    (hc : i.addr ≠ s.cfg.broadcastAddr) : drain bytes s = .next (s.frameHeld i) := by
  have filtered : exec i (s.frameHeld i) = .next (s.frameHeld i) :=
    otherBoardsCommandHasNoEffect i (s.frameHeld i) hb hc
  rw [drainRunsFrameBeforeNextByte bytes [] i s hs hdecode, filtered, andThen_next, drain]

/-- Settles O35: the held frame is receiver registers and FRAME_OK. -/
theorem addressMismatchRecordsFrameOkOnly : Obligations.AddressMismatchRecordsFrameOkOnly := by
  intro bytes i s hs hdecode hb hc
  exact ⟨s.frameHeld i, drain_otherBoard hs hdecode hb hc, State.frameHeld_trace i s,
    State.frameHeld_tx i s, State.frameHeld_ch i s, rfl⟩

end Sys2Proof.Machine
end
section
/-! PROOFS. Reset (70_reset_and_hazards.md R260-R262): what a reset of a running block writes, and the first pass after a reset. -/
namespace Sys2Proof.Machine

/-- The environment's next answer is read off what is lined up and the count of passes, and off no register. -/
theorem nextInput_congr {s t : State} (hpending : t.pending = s.pending) (hpasses : t.passes = s.passes) :
    t.nextInput = s.nextInput := by
  rw [State.nextInput, State.nextInput, hpending, hpasses]

/-- Settles O59: the registers are those of `resetWith`, and what the environment holds is not written. -/
theorem externalResetSetsRegisters : Obligations.ExternalResetSetsRegisters := by
  intro p s
  have answers : (s.externalReset p).nextInput = s.nextInput := nextInput_congr rfl rfl
  exact ⟨rfl, rfl, rfl, rfl, answers, rfl⟩

/-! ### The first pass -/

/-- With no byte to drain, the line free and the receiver in Idle, a pass is its sampling and its refresh
(42_control_loop.md R190). -/
theorem step_of_quiet {s : State} (hv : Valid s.cfg) (hw : Wf s) (hrx : s.nextInput.rx = [])
    (hidle : s.rx.phase = .idle) (hfree : s.tx.phase = .idle) :
    step s = .next (pwmRefresh (sampleStep s.nextInput.sample s.beginPass)) := by
  have drained : drain s.nextInput.rx s.beginPass = .next s.beginPass := by rw [hrx, drain_nil]
  have waiting : transmitStep s.nextInput.txComplete s.beginPass = .next s.beginPass :=
    transmitStep_of_lineFree (s := s.beginPass) hfree _
  obtain ⟨_, _, _, written, -⟩ := sampleAndRefresh_writesChannelsOnly s.nextInput.sample s.beginPass
  have swept := timeoutCheck_of_idle (s := pwmRefresh (sampleStep s.nextInput.sample s.beginPass))
    (by rw [written]; exact hidle)
  exact step_eq_next.mpr ⟨hv, hw, pass_eq_next.mpr ⟨_, _, drained, waiting, swept.symm⟩⟩

/-- The first sample does not wait for the cadence, and does not ask the clock (42_control_loop.md R200). -/
theorem sampleStep_of_unprimed {s : State} (h : s.ch.cadPrimed = false) (result : Option ChannelValues) :
    sampleStep result s = s.takeSample result := if_pos h

/-- Until outputs have been applied a refresh is due, whatever OUT is (42_control_loop.md R203). -/
theorem pwmRefresh_of_not_appliedValid {s : State} (h : s.ch.appliedValid = false) :
    pwmRefresh s = { s with
      ch := { s.ch with applied := s.ch.out, appliedValid := true }
      trace := s.trace ++ [.outputs s.ch.out] } := if_pos (.inl h)

@[simp] theorem takeSample_trace (result : Option ChannelValues) (s : State) :
    (s.takeSample result).trace = s.trace ++ [.sample result.isSome] := by
  cases result with
  | none => rw [takeSample_none]; rfl
  | some v => rw [takeSample_some]; rfl

@[simp] theorem takeSample_appliedValid (result : Option ChannelValues) (s : State) :
    (s.takeSample result).ch.appliedValid = s.ch.appliedValid := by
  cases result with
  | none => rw [takeSample_none]
  | some v => rw [takeSample_some]

/-- Where nothing was sampled or applied before, sampling and refresh both happen, in this order. -/
theorem sampleAndRefresh_of_fresh {s : State} (hprimed : s.ch.cadPrimed = false)
    (hvalid : s.ch.appliedValid = false) (result : Option ChannelValues) :
    (pwmRefresh (sampleStep result s)).trace = s.trace ++ [.sample result.isSome, .outputs s.ch.out] ∧
      (pwmRefresh (sampleStep result s)).ch.stale = result.isNone ∧
      (pwmRefresh (sampleStep result s)).ch.appliedValid = true := by
  obtain ⟨-, -, stale⟩ := takeSample_cadence result s
  rw [sampleStep_of_unprimed hprimed,
    pwmRefresh_of_not_appliedValid (by rw [takeSample_appliedValid, hvalid])]
  exact ⟨by simp, stale, rfl⟩

/-- Settles O60: the reset state is within the invariants and quiet, its cadence unprimed, and its OUT never applied. -/
theorem firstPassSamplesAndApplies : Obligations.FirstPassSamplesAndApplies := by
  intro p inp hv hrx
  have hw : Wf { State.resetWith p with pending := [inp] } := resetWith_wf p
  exact ⟨_, step_of_quiet hv hw hrx rfl rfl, sampleAndRefresh_of_fresh rfl rfl inp.sample⟩

end Sys2Proof.Machine
end
